-- ==== Sys2Proof/Word.lean ====
section
/-! DEFINITION. The block's word: "All registers are 32 bits wide" (10_state.md R20), and every
register value is an unsigned 32-bit number (00_scope.md R8). -/

namespace Sys2Proof

/-- The contents of a register, a bus word or a command word (XLEN = 32, 00_scope.md R5). -/
abbrev Word := BitVec 32

/-- One byte lane of the host bus (20_memory.md R63). -/
abbrev Byte := BitVec 8

end Sys2Proof
end

