-- ==== Sys2Proof/Machine/HostSyntax.lean ====
section
/-! DEFINITION. What the Host agent can say: the names of the block's registers (10_state.md R20), the
accesses of the host bus (20_memory.md R60 to R62) and the statements of a host program (30_encoding.md
R89). Plain data; what each of them does is in HostPort.lean and HostProgram.lean. -/

namespace Sys2Proof.Machine

/-- The four words of a report row (10_state.md R38). -/
inductive RowWord where
  | total | det | rate | weight
deriving DecidableEq, Repr

/-- The registers of the window, by the names of 10_state.md R20. `row w f` is a word of report row `w`,
`1 ≤ w ≤ 32`. -/
inductive Reg where
  | ctrl | status | cmd | gpoly | gdeg | cfgN | kView | info | cw | rx | divd | rem | synd | evec | rows
  | row (w : Nat) (f : RowWord)
deriving DecidableEq, Repr

/-- A bus access reads, or writes a value (`MemRead`, `MemWrite`, 00_scope.md R9). -/
inductive BusOp where
  | read
  | write (v : Word)
deriving DecidableEq, Repr

/-- One access on the host port. `bits` is its width; the block accepts 32 only (20_memory.md R61), and
the value a write of another width carries plays no part, since the access is refused (R62). -/
structure BusAccess where
  /-- The host byte address. -/
  addr : Nat
  bits : Nat
  op : BusOp
deriving DecidableEq, Repr

/-- "condition on the last value read" (30_encoding.md R89): the bits of the value under `mask` equal
`expect` (or, with `holds = false`, differ from it). DESIGN CHOICE, log entry 7: the spec gives the
condition no grammar, and this is the form its programs use. -/
structure HostCond where
  mask : Word
  expect : Word
  holds : Bool
deriving DecidableEq, Repr

/-- A statement of a host program (30_encoding.md R89). Labels are named by numbers. -/
inductive HostStmt where
  /-- `wr` and `rd`, and every access form the bus refuses. -/
  | access (a : BusAccess)
  /-- `label:` -/
  | label (l : Nat)
  /-- `if <condition on the last value read> goto label`. -/
  | branch (c : HostCond) (l : Nat)
deriving DecidableEq, Repr

/-- Whose step comes next (00_scope.md R12): the Host's, the Core's, or the hardware reset's. -/
inductive Turn where
  | host | core | rst
deriving DecidableEq, Repr

end Sys2Proof.Machine
end

