-- ==== Sys2Proof/Syntax.lean ====
section
/-! DEFINITION. The command set, revision 1: one constructor for each row of opcode_table.json
(30_encoding.md R81). The argument of a command is an unsigned number (R82); that it fits the six bits of
ARG is checked in WellFormed.lean. -/

namespace Sys2Proof

/-- The nine commands of 30_encoding.md R81. -/
inductive Instr where
  /-- NOP, 43_control.md R180. -/
  | nop
  /-- DIVREM LEN, 40_gf2_engine.md R102; LEN = 0 selects the codeword length N. -/
  | divrem (len : Nat)
  /-- ENCODE, 41_codec.md R121. -/
  | encode
  /-- CHECK, 41_codec.md R124. -/
  | check
  /-- ENUM_FIRST W, 42_analyzer.md R142. -/
  | enumFirst (w : Nat)
  /-- ENUM_NEXT, 42_analyzer.md R143. -/
  | enumNext
  /-- ANALYZE_W W, 42_analyzer.md R151. -/
  | analyzeW (w : Nat)
  /-- ANALYZE, 42_analyzer.md R152. -/
  | analyze
  /-- RUN, 42_analyzer.md R153. -/
  | run
deriving DecidableEq, Repr

end Sys2Proof
end

