-- ==== Sys2Proof/WellFormed.lean ====
section
/-! DEFINITION. Which terms are meaningful: a command whose argument fits the ARG field (30_encoding.md
R80, R82), a register name that 10_state.md R20 has, and a host program whose labels are defined once
and whose branches go to a label it has (30_encoding.md R89). -/

namespace Sys2Proof

/-- ARG is six bits wide: "an unsigned value 0..63" (30_encoding.md R82). -/
def argFits (arg : Nat) : Bool := decide (arg < 64)

/-- A command that a word can encode. -/
def Instr.wellFormed : Instr → Bool
  | .nop => true
  | .divrem len => argFits len
  | .encode => true
  | .check => true
  | .enumFirst w => argFits w
  | .enumNext => true
  | .analyzeW w => argFits w
  | .analyze => true
  | .run => true

namespace Machine

/-- The report has rows 1 to 32 (10_state.md R38). -/
def Reg.wellFormed : Reg → Bool
  | .row w _ => decide (1 ≤ w) && decide (w ≤ 32)
  | _ => true

/-- The labels a host program defines, in order. -/
def programLabels : List HostStmt → List Nat
  | [] => []
  | .label l :: rest => l :: programLabels rest
  | .access _ :: rest => programLabels rest
  | .branch _ _ :: rest => programLabels rest

/-- The labels a host program's branches go to. -/
def programTargets : List HostStmt → List Nat
  | [] => []
  | .branch _ l :: rest => l :: programTargets rest
  | .access _ :: rest => programTargets rest
  | .label _ :: rest => programTargets rest

/-- No label stands twice. -/
def labelsDistinct (prog : List HostStmt) : Bool := decide (programLabels prog).Nodup

/-- Every branch goes to a label of the program. -/
def targetsDefined (prog : List HostStmt) : Bool :=
  (programTargets prog).all fun l => (programLabels prog).contains l

/-- A host program with a meaning. -/
def programWellFormed (prog : List HostStmt) : Bool := labelsDistinct prog && targetsDefined prog

end Machine

end Sys2Proof
end

