-- ==== Sys2Proof/Decode.lean ====
section
/-! DEFINITION. The command word CMD32 (30_encoding.md R80): its fields, the decoder (R88), total on every
32-bit word and rejecting by name, the encoder (R81, R89), and the byte lanes of a word (20_memory.md
R63). -/

namespace Sys2Proof

/-! ### Fields (R80) -/

/-- OP, bits 7:0. -/
def fieldOp (v : Word) : Nat := (v.extractLsb' 0 8).toNat

/-- ARG, bits 13:8, "neither scaled nor sign-extended" (R82). -/
def fieldArg (v : Word) : Nat := (v.extractLsb' 8 6).toNat

/-- RSV, bits 31:14, must be 0 (R83). -/
def fieldRsv (v : Word) : Nat := (v.extractLsb' 14 18).toNat

/-! ### The decoder -/

/-- Why a word is illegal. Every one of them completes as fault ILLEGAL_CMD (R85). -/
inductive DecodeError where
  /-- `word[31:14] != 0` (R83). -/
  | reservedBits
  /-- ARG set on an opcode without an argument (R84). -/
  | argNotZero
  /-- OP 0x09 to 0xFF (R85). -/
  | reservedOpcode
  /-- Fewer than the four bytes of a word: no command is shorter (R87). -/
  | truncated
deriving DecidableEq, Repr

/-- An opcode without an argument requires ARG = 0 (R84). -/
def withoutArg (arg : Nat) (i : Instr) : Except DecodeError Instr :=
  if arg = 0 then .ok i else .error .argNotZero

/-- The opcode map of R81, in the order of R88. -/
def decodeOp (op arg : Nat) : Except DecodeError Instr :=
  match op with
  | 0x00 => withoutArg arg .nop
  | 0x01 => .ok (.divrem arg)
  | 0x02 => withoutArg arg .encode
  | 0x03 => withoutArg arg .check
  | 0x04 => .ok (.enumFirst arg)
  | 0x05 => withoutArg arg .enumNext
  | 0x06 => .ok (.analyzeW arg)
  | 0x07 => withoutArg arg .analyze
  | 0x08 => withoutArg arg .run
  | _ => .error .reservedOpcode

/-- `decode` of R88. -/
def decode (v : Word) : Except DecodeError Instr :=
  if fieldRsv v = 0 then decodeOp (fieldOp v) (fieldArg v) else .error .reservedBits

/-! ### The encoder -/

/-- `match | (arg << 8)` (R89), where `match` is the opcode (R81). What an argument above 63 gives is the
model's choice (DESIGN CHOICE, log entry 19): R82 has no ARG for it, and the formula is applied as it stands,
so that bit 14 or a higher one of the word is set and the word is illegal (R83), up to what the shift loses. -/
def commandWord (op arg : Nat) : Word := BitVec.ofNat 32 op ||| BitVec.ofNat 32 arg <<< 8

/-- The opcode of a command (R81). -/
def Instr.opcode : Instr → Nat
  | .nop => 0x00
  | .divrem _ => 0x01
  | .encode => 0x02
  | .check => 0x03
  | .enumFirst _ => 0x04
  | .enumNext => 0x05
  | .analyzeW _ => 0x06
  | .analyze => 0x07
  | .run => 0x08

/-- The argument of a command, 0 where it has none (R80). -/
def Instr.argument : Instr → Nat
  | .divrem len => len
  | .enumFirst w => w
  | .analyzeW w => w
  | .nop => 0
  | .encode => 0
  | .check => 0
  | .enumNext => 0
  | .analyze => 0
  | .run => 0

/-- The word of a command: its `match | (arg << 8)` (R89). -/
def encode (i : Instr) : Word := commandWord i.opcode i.argument

/-! ### Byte lanes (20_memory.md R63) -/

/-- "byte lane b (b = 0..3) carries bits [8b+7:8b]". -/
def byteLane (v : Word) (b : Nat) : Byte := v.extractLsb' (8 * b) 8

/-- The four bytes of a word, lowest host address first. -/
def bytesOfWord (v : Word) : List Byte := [byteLane v 0, byteLane v 1, byteLane v 2, byteLane v 3]

/-- The word whose byte lanes 0 to 3 are the four bytes. -/
def wordOfBytes (b0 b1 b2 b3 : Byte) : Word := (b3 ++ b2) ++ (b1 ++ b0)

/-- The command at the head of a byte image, with the bytes after it (R63, R87). -/
def decodeBytes : List Byte → Except DecodeError (Instr × List Byte)
  | b0 :: b1 :: b2 :: b3 :: rest =>
    match decode (wordOfBytes b0 b1 b2 b3) with
    | .ok i => .ok (i, rest)
    | .error e => .error e
  | _ => .error .truncated

/-! ### The opcode table's numbering -/

/-- The word whose low `nbits` bits are those of `w`; every bit above them is 0. -/
def tableWord (nbits w : Nat) : Word := BitVec.ofNat 32 (w % 2 ^ nbits)

/-- What the decoder reads from an instruction whose bits are `w`, numbered as opcode_table.json numbers
them, laid out in the block's byte lanes; none where it refuses. No command has a bit above bit 31 (R87). -/
def decodeTableWord (nbits w : Nat) : Option Instr :=
  if w % 2 ^ nbits < 2 ^ 32 then
    match decodeBytes (bytesOfWord (tableWord nbits w)) with
    | .ok (i, _) => some i
    | .error _ => none
  else none

end Sys2Proof
end

