-- ==== Sys2Proof/Config.lean ====
section
/-! DEFINITION. What an implementation or the platform fixes, and the free values. The block's sizes and
its reset configuration are the spec's (00_scope.md R5, 10_state.md R51); `cycBasePage`, `freeWord` and `freeTurns`
are opaque: nothing can be proved of their values. -/

namespace Sys2Proof.Config

/-- The largest codeword length, NMAX (00_scope.md R5). -/
def nMax : Nat := 32

/-- The generator after reset, x³+x+1 (10_state.md R34). -/
def resetGpoly : Word := 0x0000000B#32

/-- The generator's degree after reset (10_state.md R35). -/
def resetGdeg : BitVec 5 := 3#5

/-- The codeword length after reset (10_state.md R36). -/
def resetN : BitVec 6 := 7#6

/-- The number of the 1 KiB page the platform places the window in (20_memory.md R60). OPEN: no body
(log entry 5). -/
opaque cycBasePage : Nat

/-- CYC_BASE, "a multiple of 0x400" (20_memory.md R60). -/
def cycBase : Nat := 0x400 * cycBasePage

/-- FREE VALUE: the word that the n-th drawn read answers (10_state.md R47: "a draw, with no law
relating it to the old or the new value"). No body (log entry 4). -/
opaque freeWord : Nat → Word

/-- FREE VALUE: the turns of the n-th round. "The order of Host and Core steps is free" (00_scope.md R12),
the hardware reset "may occur at any time" and LAT is OPEN (70_reset_and_hazards.md R240, R253), so a round
is any finite list of turns. No body (log entry 2). -/
opaque freeTurns : Nat → List Machine.Turn

end Sys2Proof.Config
end

