-- ==== Sys2Proof/Machine/State.lean ====
section
/-! DEFINITION. The machine's state as plain data (10_state.md), its reset value (R51), and the reasons a
step can stop. A register whose upper bits are reserved (read 0, writes ignored: GDEG, CFG_N, ROWS) is
held at the width of its used bits, so that the reserved bits cannot be set. -/

namespace Sys2Proof.Machine

/-- STATUS.CAUSE, "a closed type of the seven values 0..6" (60_exceptions.md R201, R208). -/
inductive Cause where
  | none | illegalCmd | malformedPoly | badConfig | badArg | operandRange | enumState
deriving DecidableEq, Repr

/-- The fields of STATUS (10_state.md R25 to R32). -/
structure Status where
  busy : Bool
  done : Bool
  fault : Bool
  errdet : Bool
  enumValid : Bool
  werr : Bool
  cause : Cause
deriving DecidableEq, Repr

/-- A report row: TOTAL, DET, RATE and W (10_state.md R38). -/
structure Row where
  total : Word
  det : Word
  rate : Word
  weight : Word
deriving DecidableEq, Repr

/-- "A row that holds no result reads all four words as 0" (10_state.md R38). -/
def Row.empty : Row := { total := 0, det := 0, rate := 0, weight := 0 }

/-- The registers of the block and its hidden word PEND (10_state.md R20, R45). `report` holds row w at
index w - 1, for w = 1..32. -/
structure Regs where
  ie : Bool
  status : Status
  pend : Word
  gpoly : Word
  gdeg : BitVec 5
  cfgN : BitVec 6
  info : Word
  cw : Word
  rx : Word
  divd : Word
  rem : Word
  synd : Word
  evec : Word
  rows : BitVec 6
  report : Vector Row 32
deriving DecidableEq, Repr

/-- The Host agent: its program, its position in it, and the last value it read (30_encoding.md R89; the
position "is host state and not block state", 10_state.md R21). -/
structure HostState where
  prog : List HostStmt
  pos : Nat
  last : Word
deriving DecidableEq, Repr

/-- The machine: the block, the Host agent, the turns still to be taken in the round and the number of free
rounds begun (00_scope.md R12, log entry 2), and the number of drawn reads made so far (10_state.md R47, log
entry 4). -/
structure State where
  regs : Regs
  host : HostState
  sched : List Turn
  rounds : Nat
  draws : Nat
deriving DecidableEq, Repr

/-- Why the Host agent's step stops. A fault of a COMMAND is no such stop: it is a next state with
STATUS.FAULT set (60_exceptions.md R210). -/
inductive Fault where
  /-- Raised by a host access inside the window that is not an aligned 32-bit one ("A model treats a
  refused access as a fault of the Host agent's step", 20_memory.md R62). Safe. -/
  | busError
  /-- Raised by a host access at an address outside the window, which "does not reach the block"
  (20_memory.md R60; refused, 93_implementation_defined.md I18). Safe (log entry 6). -/
  | outsideWindow
  /-- Raised by a host branch to a label that the host program does not have: such a program has no
  meaning (log entry 7). Safe. -/
  | undefinedLabel
deriving DecidableEq, Repr

/-- Refusals. No meaning of this model refuses. -/
inductive Refusal where
  /-- Raised only by an arm of `exec` whose instruction has no meaning yet; there is none. Safe. -/
  | notModelled (mnemonic : String)
deriving DecidableEq, Repr

/-- STATUS after reset: "all fields" 0 (10_state.md R51). -/
def Status.reset : Status :=
  { busy := false, done := false, fault := false, errdet := false, enumValid := false, werr := false,
    cause := .none }

/-- The registers after hardware reset and soft reset (10_state.md R51). PEND is "meaningless" there; its
value 0 is the model's (DESIGN CHOICE, log entry 3). -/
def Regs.reset : Regs :=
  { ie := false
    status := Status.reset
    pend := 0
    gpoly := Config.resetGpoly
    gdeg := Config.resetGdeg
    cfgN := Config.resetN
    info := 0
    cw := 0
    rx := 0
    divd := 0
    rem := 0
    synd := 0
    evec := 0
    rows := 0
    report := Vector.replicate 32 Row.empty }

/-- A host with no program (log entries 1 and 10). -/
def HostState.reset : HostState := { prog := [], pos := 0, last := 0 }

/-- The machine right after reset, with no host program, no turn fixed, no free round begun and no draw
made. -/
def State.reset : State :=
  { regs := Regs.reset, host := HostState.reset, sched := [], rounds := 0, draws := 0 }

end Sys2Proof.Machine
end

