-- ==== Sys2Proof/Machine/Flags.lean ====
section
/-! DEFINITION. The STATUS register's fields as bits (10_state.md R25), its write-one-to-clear bits, the
flags a completion sets, and the interrupt output (60_exceptions.md R215). -/

namespace Sys2Proof.Machine

/-- The cause codes (60_exceptions.md R201). -/
def Cause.code : Cause → BitVec 4
  | .none => 0
  | .illegalCmd => 1
  | .malformedPoly => 2
  | .badConfig => 3
  | .badArg => 4
  | .operandRange => 5
  | .enumState => 6

/-- The bit position of STATUS.ERRDET (10_state.md R25). -/
def errdetBit : Nat := 3

/-- The bit position of STATUS.ENUM_VALID (10_state.md R25). -/
def enumValidBit : Nat := 4

/-- STATUS as a word: CAUSE in bits 11:8, WERR, ENUM_VALID, ERRDET, FAULT, DONE, BUSY in bits 5 to 0, and
zero in the reserved bits 31:12 and 7:6 (10_state.md R25). -/
def Status.toWord (f : Status) : Word :=
  0#20 ++ f.cause.code ++ 0#2 ++ BitVec.ofBool f.werr ++ BitVec.ofBool f.enumValid
    ++ BitVec.ofBool f.errdet ++ BitVec.ofBool f.fault ++ BitVec.ofBool f.done ++ BitVec.ofBool f.busy

/-- A host write of `v` to STATUS: clears DONE if bit 1 of `v` is 1, and WERR if bit 5 is 1; "It changes
nothing else" (10_state.md R25). -/
def Status.writeOneToClear (f : Status) (v : Word) : Status :=
  { f with
    done := if v.getLsbD 1 then false else f.done
    werr := if v.getLsbD 5 then false else f.werr }

/-- A completion without a fault: BUSY <- 0 and DONE <- 1 (43_control.md R186). -/
def Status.completed (f : Status) : Status := { f with busy := false, done := true }

/-- Fault entry: FAULT <- 1, CAUSE <- cause, BUSY <- 0; "DONE stays 0", so DONE is not written
(60_exceptions.md R210). -/
def Status.faulted (f : Status) (c : Cause) : Status :=
  { f with fault := true, cause := c, busy := false }

/-- Command issue: BUSY <- 1, DONE <- 0 (43_control.md R182). -/
def Status.issued (f : Status) : Status := { f with busy := true, done := false }

/-- A dropped write: WERR <- 1 (10_state.md R31). -/
def Status.dropped (f : Status) : Status := { f with werr := true }

/-- `irq = IE and (DONE or FAULT)`, level-sensitive, active high (60_exceptions.md R215). -/
def Regs.irq (r : Regs) : Bool := r.ie && (r.status.done || r.status.fault)

end Sys2Proof.Machine
end

