-- ==== Sys2Proof/Machine/Operands.lean ====
section
/-! DEFINITION. The operands of the commands: the lengths N, Z, K and L, the legality predicates `CfgOK`
and `GOK` (00_scope.md R6), and the stray bits of an operand (60_exceptions.md R206). The block has no
register operand fields and no addressing modes (30_encoding.md R91). -/

namespace Sys2Proof.Machine

/-- N, the codeword length: CFG_N[5:0] (10_state.md R36). -/
def Regs.codeLength (r : Regs) : Nat := r.cfgN.toNat

/-- Z, the degree of the generator: GDEG[4:0] (10_state.md R35). -/
def Regs.degree (r : Regs) : Nat := r.gdeg.toNat

/-- K, the information length N - Z, and 0 where N ≤ Z (10_state.md R37). -/
def Regs.infoLength (r : Regs) : Nat := r.codeLength - r.degree

/-- L, the dividend length of DIVREM: "LEN = 0 selects L = N" (30_encoding.md R82). -/
def Regs.dividendLength (r : Regs) (len : Nat) : Nat := if len = 0 then r.codeLength else len

/-- `CfgOK`: "1 <= N <= 32 and Z < N" (00_scope.md R6). -/
def Regs.configOk (r : Regs) : Bool :=
  decide (1 ≤ r.codeLength) && decide (r.codeLength ≤ Config.nMax) && decide (r.degree < r.codeLength)

/-- No set bit at or above bit `n`: `v[31:n] == 0`, taken as true when n ≥ 32 (00_scope.md R8). -/
def noBitFrom (v : Word) (n : Nat) : Bool := v >>> n == 0#32

/-- `GOK`: "its leading coefficient `GPOLY[Z]` is 1 and no coefficient above degree Z is set"
(00_scope.md R6). -/
def Regs.generatorOk (r : Regs) : Bool :=
  r.gpoly.getLsbD r.degree && noBitFrom r.gpoly (r.degree + 1)

end Sys2Proof.Machine
end

