-- ==== Sys2Proof/Machine/Ops.lean ====
section
/-! DEFINITION. The shared operations over the registers: the report rows, latching a command, dropping a
write, completing a command, TAKING A FAULT (60_exceptions.md R210) and leaving the fault state by reset
(R212), and the frame every command has: its checks in order, then its effect (43_control.md R186). The
block has no memory (10_state.md R52), so there is no memory operation. -/

namespace Sys2Proof.Machine

/-! ### Report rows (10_state.md R38) -/

/-- The contents of report row `w`; row 0 and rows above 32 do not exist and read as empty. -/
def Regs.rowAt (r : Regs) (w : Nat) : Row :=
  if w = 0 then Row.empty else (r.report[w - 1]?).getD Row.empty

/-- Report row `w` replaced. There is no row outside 1..32. -/
def Regs.setRow (r : Regs) (w : Nat) (row : Row) : Regs :=
  if w = 0 then r else { r with report := r.report.setIfInBounds (w - 1) row }

/-- The 32 report rows given by `row w` for w = 1..32. -/
def reportOf (row : Nat → Row) : Vector Row 32 := Vector.ofFn fun i => row (i.val + 1)

/-! ### Writes to the registers -/

/-- PEND <- v, BUSY <- 1, DONE <- 0: the accepted issue of command word `v` (43_control.md R182). -/
def Regs.latch (r : Regs) (v : Word) : Regs := { r with pend := v, status := r.status.issued }

/-- A dropped write: WERR <- 1, and nothing else changes (10_state.md R31). -/
def Regs.dropWrite (r : Regs) : Regs := { r with status := r.status.dropped }

/-- A command completed: BUSY <- 0, DONE <- 1 (43_control.md R186). -/
def Regs.complete (r : Regs) : Regs := { r with status := r.status.completed }

/-- `fault(cause)`: FAULT <- 1, CAUSE <- cause, BUSY <- 0, and no register of the command's write set is
written (60_exceptions.md R210). -/
def Regs.takeFault (r : Regs) (c : Cause) : Regs := { r with status := r.status.faulted c }

/-! ### The state -/

/-- The state with other registers. -/
def State.withRegs (s : State) (r : Regs) : State := { s with regs := r }

/-- Taking a fault: the shared fault entry of every command (60_exceptions.md R210). -/
def State.takeFault (s : State) (c : Cause) : State := s.withRegs (s.regs.takeFault c)

/-- "There is no return-from-fault command. Only a hardware reset or a soft reset" leaves the fault state
(60_exceptions.md R212). Both put the whole block to its reset values (70_reset_and_hazards.md R241); the
Host agent and the turns are outside the block and go on. -/
def State.resetBlock (s : State) : State := s.withRegs Regs.reset

/-- The first check that fails, in the order listed (60_exceptions.md R209). A check is a condition that
must hold, with the cause it raises when it does not. -/
def firstFailure : List (Bool × Cause) → Option Cause
  | [] => Option.none
  | (ok, c) :: rest => if ok then firstFailure rest else some c

/-- The completion of a decoded command (43_control.md R186): its checks in order, the first failing one
raising its fault, and otherwise its effect on the registers, BUSY <- 0 and DONE <- 1. Every check comes
before any write (00_scope.md R9). -/
def checked (checks : List (Bool × Cause)) (effect : Regs → Regs) (s : State) :
    Host.Outcome State Fault Refusal :=
  match firstFailure checks with
  | some c => .next (s.takeFault c)
  | Option.none => .next (s.withRegs (effect s.regs).complete)

end Sys2Proof.Machine
end

