-- ==== Sys2Proof/Machine/Poly.lean ====
section
/-! DEFINITION. The pure functions of the GF(2) polynomial engine and of the cyclic codec: `polymod`
(40_gf2_engine.md R100), `encode` (41_codec.md R120) and `has_error` (R123). Bit j of a word is the
coefficient of x^j (00_scope.md R7). -/

namespace Sys2Proof.Machine

/-- `k` iterations of the loop of R100, for i = Z + k - 1 down to Z: where the running remainder has bit
i, the divisor, aligned under it by the shift i - Z, is XORed in. -/
def polymodLoop (g : Word) (z : Nat) : Nat → Word → Word
  | 0, r => r
  | k + 1, r => polymodLoop g z k (if r.getLsbD (z + k) then r ^^^ (g <<< k) else r)

/-- `polymod(a, L, g, Z)` (R100): the remainder of the dividend `a` of length `len` by the divisor `g` of
degree `z`; "no iteration when L <= Z". -/
def polymod (a : Word) (len : Nat) (g : Word) (z : Nat) : Word := polymodLoop g z (len - z) a

/-- `encode(info, K, g, Z)` (41_codec.md R120): the extended vector XOR its remainder. -/
def encodeInfo (info : Word) (k : Nat) (g : Word) (z : Nat) : Word :=
  (info <<< z) ^^^ polymod (info <<< z) (k + z) g z

/-- `has_error(rx, N, g, Z)` (41_codec.md R123): the syndrome is not zero. -/
def hasError (rx : Word) (n : Nat) (g : Word) (z : Nat) : Bool := polymod rx n g z != 0#32

end Sys2Proof.Machine
end

