-- ==== Sys2Proof/Machine/Sweep.lean ====
section
/-! DEFINITION. The pure functions of the detection analyzer (42_analyzer.md): the canonical enumeration
of error vectors (R140), its first element and successor (R141), the binomial coefficient (00_scope.md
R9), the rounded rate (R160) and the detection row (R150). -/

namespace Sys2Proof.Machine

/-! ### Positions (R140) -/

/-- `vec_n(P)`: position p is bit n-1-p. -/
def vecOf (n : Nat) : List Nat → Word
  | [] => 0
  | p :: ps => (1#32 <<< (n - 1 - p)) ||| vecOf n ps

/-- The positions of `v`, in increasing order: "p is a position iff v[n-1-p] == 1" (R141). -/
def positionsOf (n : Nat) (v : Word) : List Nat :=
  (List.range n).filter fun p => v.getLsbD (n - 1 - p)

/-- The increasing w-tuples of positions among the `m` positions from `p` on, in increasing
lexicographic order: first those that contain `p`, then those that do not. -/
def tuplesFrom : Nat → Nat → Nat → List (List Nat)
  | _, _, 0 => [[]]
  | _, 0, _ + 1 => []
  | p, m + 1, w + 1 => (tuplesFrom (p + 1) m w).map (p :: ·) ++ tuplesFrom (p + 1) m (w + 1)

/-- `E(n, w)`, the canonical sequence of error vectors of length n and weight w (R140). -/
def errorVectors (n w : Nat) : List Word := (tuplesFrom 0 n w).map (vecOf n)

/-! ### First and successor (R141) -/

/-- `first(n, w)`: positions 0 to w-1. -/
def firstVector (n w : Nat) : Word := ((1#32 <<< w) - 1#32) <<< (n - w)

/-- The lexicographic successor of an increasing tuple of positions below n. The largest index i with
`p_i < n - w + i` is looked for from the right (w - i is the number of positions from p_i on); p_i goes up
by one and the positions after it follow consecutively (R141). -/
def nextTuple (n : Nat) : List Nat → Option (List Nat)
  | [] => none
  | p :: ps =>
    match nextTuple n ps with
    | some qs => some (p :: qs)
    | none => if p + (ps.length + 1) < n then some (List.range' (p + 1) (ps.length + 1)) else none

/-- `next(n, v)` (R141): whether `v` has a successor in its enumeration, and the successor, or 0. -/
def nextVector (n : Nat) (v : Word) : Bool × Word :=
  match nextTuple n (positionsOf n v) with
  | some qs => (true, vecOf n qs)
  | none => (false, 0)

/-! ### The detection row -/

/-- `C(n, w) = n!/(w!(n-w)!)` for 0 ≤ w ≤ n (00_scope.md R9). -/
def binomial (n w : Nat) : Nat := n.factorial / (w.factorial * (n - w).factorial)

/-- `rne(p, q)`: the integer nearest to p/q, ties to even (R160). -/
def rne (p q : Nat) : Nat :=
  if 2 * (p % q) < q then p / q
  else if q < 2 * (p % q) then p / q + 1
  else if p / q % 2 = 0 then p / q else p / q + 1

/-- The number of error vectors of weight `w` that are detected on the received base `cw` (R150). -/
def detectedCount (cw : Word) (n : Nat) (g : Word) (z w : Nat) : Nat :=
  (errorVectors n w).countP fun e => hasError (cw ^^^ e) n g z

/-- `row(cw, N, g, Z, w)` (R150), computed on unbounded naturals; the four words are its 32-bit
results. -/
def detectionRow (cw : Word) (n : Nat) (g : Word) (z w : Nat) : Row :=
  { total := BitVec.ofNat 32 (binomial n w)
    det := BitVec.ofNat 32 (detectedCount cw n g z w)
    rate := BitVec.ofNat 32 (rne (detectedCount cw n g z w * 10000) (binomial n w))
    weight := BitVec.ofNat 32 w }

/-- The report of R152: rows 1 to N computed, "for w = N+1 .. 32: ROW[w] <- (0, 0, 0, 0)". -/
def fullReport (cw : Word) (n : Nat) (g : Word) (z : Nat) : Vector Row 32 :=
  reportOf fun w => if w ≤ n then detectionRow cw n g z w else Row.empty

end Sys2Proof.Machine
end

