-- ==== Sys2Proof/Machine/Analyzer.lean ====
section
/-! DEFINITION. ENUM_FIRST, ENUM_NEXT, ANALYZE_W, ANALYZE and RUN (42_analyzer.md R142, R143, R151 to
R153). The sweep inside the last three neither uses nor changes EVEC or ENUM_VALID (R162). -/

namespace Sys2Proof.Machine

/-- ENUM_FIRST W: EVEC <- first(N, W), ENUM_VALID <- 1. "GPOLY is not read" (42_analyzer.md R142). -/
def execEnumFirst (w : Nat) (s : State) : Host.Outcome State Fault Refusal :=
  checked
    [ (s.regs.configOk, .badConfig),
      (decide (w ≤ s.regs.codeLength), .badArg) ]
    (fun r =>
      { r with
        evec := firstVector r.codeLength w
        status := { r.status with enumValid := true } }) s

/-- ENUM_NEXT: EVEC <- the successor, or 0 with ENUM_VALID <- 0 past the last vector
(42_analyzer.md R143). -/
def execEnumNext (s : State) : Host.Outcome State Fault Refusal :=
  checked
    [ (s.regs.configOk, .badConfig),
      (s.regs.status.enumValid, .enumState) ]
    (fun r =>
      { r with
        evec := (nextVector r.codeLength r.evec).2
        status := { r.status with enumValid := (nextVector r.codeLength r.evec).1 } }) s

/-- ANALYZE_W W: ROW[W] <- row(CW, N, g, Z, W) (42_analyzer.md R151). -/
def execAnalyzeW (w : Nat) (s : State) : Host.Outcome State Fault Refusal :=
  checked
    [ (s.regs.generatorOk, .malformedPoly),
      (s.regs.configOk, .badConfig),
      (decide (1 ≤ w) && decide (w ≤ s.regs.codeLength), .badArg),
      (noBitFrom s.regs.cw s.regs.codeLength, .operandRange) ]
    (fun r => r.setRow w (detectionRow r.cw r.codeLength r.gpoly r.degree w)) s

/-- The report of the received base `cw` written into ROWS and ROW[1..32] (42_analyzer.md R152). -/
def Regs.writeReport (r : Regs) (cw : Word) : Regs :=
  { r with
    rows := BitVec.ofNat 6 r.codeLength
    report := fullReport cw r.codeLength r.gpoly r.degree }

/-- ANALYZE: the whole report for CW (42_analyzer.md R152). -/
def execAnalyze (s : State) : Host.Outcome State Fault Refusal :=
  checked
    [ (s.regs.generatorOk, .malformedPoly),
      (s.regs.configOk, .badConfig),
      (noBitFrom s.regs.cw s.regs.codeLength, .operandRange) ]
    (fun r => r.writeReport r.cw) s

/-- The registers with CW <- encode(INFO, K, g, Z) and then the report of the new CW
(42_analyzer.md R153). -/
def Regs.encodeThenReport (r : Regs) : Regs :=
  { r with cw := encodeInfo r.info r.infoLength r.gpoly r.degree }.writeReport
    (encodeInfo r.info r.infoLength r.gpoly r.degree)

/-- RUN: encode INFO and then analyze the new codeword, in one completion (42_analyzer.md R153). -/
def execRun (s : State) : Host.Outcome State Fault Refusal :=
  checked
    [ (s.regs.generatorOk, .malformedPoly),
      (s.regs.configOk, .badConfig),
      (noBitFrom s.regs.info s.regs.infoLength, .operandRange) ]
    Regs.encodeThenReport s

end Sys2Proof.Machine
end

