-- ==== Sys2Proof/Machine/Codec.lean ====
section
/-! DEFINITION. ENCODE and CHECK (41_codec.md R121, R124). -/

namespace Sys2Proof.Machine

/-- ENCODE: CW <- encode(INFO, K, g, Z) (41_codec.md R121). -/
def execEncode (s : State) : Host.Outcome State Fault Refusal :=
  checked
    [ (s.regs.generatorOk, .malformedPoly),
      (s.regs.configOk, .badConfig),
      (noBitFrom s.regs.info s.regs.infoLength, .operandRange) ]
    (fun r => { r with cw := encodeInfo r.info r.infoLength r.gpoly r.degree }) s

/-- CHECK: SYND <- the syndrome of RX, and ERRDET <- 1 iff it is not zero (41_codec.md R124). -/
def execCheck (s : State) : Host.Outcome State Fault Refusal :=
  checked
    [ (s.regs.generatorOk, .malformedPoly),
      (s.regs.configOk, .badConfig),
      (noBitFrom s.regs.rx s.regs.codeLength, .operandRange) ]
    (fun r =>
      { r with
        synd := polymod r.rx r.codeLength r.gpoly r.degree
        status := { r.status with errdet := hasError r.rx r.codeLength r.gpoly r.degree } }) s

end Sys2Proof.Machine
end

