-- ==== Sys2Proof/Machine/Control.lean ====
section
/-! DEFINITION. NOP (43_control.md R180). -/

namespace Sys2Proof.Machine

/-- NOP: no check, no effect; the completion sets DONE and clears BUSY (43_control.md R180). -/
def execNop (s : State) : Host.Outcome State Fault Refusal := checked [] (fun r => r) s

end Sys2Proof.Machine
end

