-- ==== Sys2Proof/Machine/Engine.lean ====
section
/-! DEFINITION. DIVREM (40_gf2_engine.md R102). -/

namespace Sys2Proof.Machine

/-- DIVREM LEN: REM <- polymod(DIVD, L, g, Z). `CfgOK` is checked only when LEN = 0
(40_gf2_engine.md R102). -/
def execDivrem (len : Nat) (s : State) : Host.Outcome State Fault Refusal :=
  checked
    [ (s.regs.generatorOk, .malformedPoly),
      (len != 0 || s.regs.configOk, .badConfig),
      (decide (len ≤ 32), .badArg),
      (noBitFrom s.regs.divd (s.regs.dividendLength len), .operandRange) ]
    (fun r => { r with rem := polymod r.divd (r.dividendLength len) r.gpoly r.degree }) s

end Sys2Proof.Machine
end

