-- ==== Sys2Proof/Machine/Dispatch.lean ====
section
/-! DEFINITION. The completion of a decoded command (43_control.md R186): one arm per command. -/

namespace Sys2Proof.Machine

def exec (i : Instr) (s : State) : Host.Outcome State Fault Refusal :=
  match i with
  | .nop => Sys2Proof.Machine.execNop s
  | .divrem len => Sys2Proof.Machine.execDivrem len s
  | .encode => Sys2Proof.Machine.execEncode s
  | .check => Sys2Proof.Machine.execCheck s
  | .enumFirst w => Sys2Proof.Machine.execEnumFirst w s
  | .enumNext => Sys2Proof.Machine.execEnumNext s
  | .analyzeW w => Sys2Proof.Machine.execAnalyzeW w s
  | .analyze => Sys2Proof.Machine.execAnalyze s
  | .run => Sys2Proof.Machine.execRun s

end Sys2Proof.Machine
end

