-- ==== Sys2Proof/Machine/HostPort.lean ====
section
/-! DEFINITION. The host port: where each register lies (10_state.md R20), what a read answers
(43_control.md R183) and what a write does (R181), the issue of a command (R182), the soft reset (R184),
and which accesses are refused (20_memory.md R62). -/

namespace Sys2Proof.Machine

/-! ### The register map (10_state.md R20) -/

/-- The place of a word inside its report row (10_state.md R38). -/
def RowWord.offset : RowWord → Nat
  | .total => 0x0
  | .det => 0x4
  | .rate => 0x8
  | .weight => 0xC

/-- The offset of a register in the window. -/
def Reg.offset : Reg → Nat
  | .ctrl => 0x000
  | .status => 0x004
  | .cmd => 0x008
  | .gpoly => 0x010
  | .gdeg => 0x014
  | .cfgN => 0x018
  | .kView => 0x01C
  | .info => 0x020
  | .cw => 0x024
  | .rx => 0x028
  | .divd => 0x02C
  | .rem => 0x030
  | .synd => 0x034
  | .evec => 0x038
  | .rows => 0x03C
  | .row w f => 0x100 + 0x10 * w + f.offset

/-- The row word at a place inside a row. -/
def rowWordAt (place : Nat) : Option RowWord :=
  match place with
  | 0x0 => some .total
  | 0x4 => some .det
  | 0x8 => some .rate
  | 0xC => some .weight
  | _ => none

/-- The report word at an offset: rows 1 to 32 at 0x110 to 0x30C. -/
def rowRegAt (off : Nat) : Option Reg :=
  if 0x110 ≤ off ∧ off < 0x310 then
    (rowWordAt (off % 0x10)).map fun f => .row ((off - 0x100) / 0x10) f
  else none

/-- The register at an offset; none at a reserved one, report row 0 among them (10_state.md R49). -/
def regAt (off : Nat) : Option Reg :=
  match off with
  | 0x000 => some .ctrl
  | 0x004 => some .status
  | 0x008 => some .cmd
  | 0x010 => some .gpoly
  | 0x014 => some .gdeg
  | 0x018 => some .cfgN
  | 0x01C => some .kView
  | 0x020 => some .info
  | 0x024 => some .cw
  | 0x028 => some .rx
  | 0x02C => some .divd
  | 0x030 => some .rem
  | 0x034 => some .synd
  | 0x038 => some .evec
  | 0x03C => some .rows
  | off => rowRegAt off

/-! ### Reading -/

/-- A word of a report row. -/
def Row.word (row : Row) : RowWord → Word
  | .total => row.total
  | .det => row.det
  | .rate => row.rate
  | .weight => row.weight

/-- The current value of a register as a read sees it, reserved bits 0 (43_control.md R183): CTRL reads
`zext_32(IE)` (10_state.md R24), CMD reads 0 (R33), K_VIEW reads N - Z, or 0 where N ≤ Z (R37). -/
def Regs.peek (r : Regs) : Reg → Word
  | .ctrl => (BitVec.ofBool r.ie).setWidth 32
  | .status => r.status.toWord
  | .cmd => 0
  | .gpoly => r.gpoly
  | .gdeg => r.gdeg.setWidth 32
  | .cfgN => r.cfgN.setWidth 32
  | .kView => BitVec.ofNat 32 r.infoLength
  | .info => r.info
  | .cw => r.cw
  | .rx => r.rx
  | .divd => r.divd
  | .rem => r.rem
  | .synd => r.synd
  | .evec => r.evec
  | .rows => r.rows.setWidth 32
  | .row w f => (r.rowAt w).word f

/-- The registers, other than STATUS, that a command writes at its completion (10_state.md R46). -/
def writeSet : Instr → Reg → Bool
  | .nop, _ => false
  | .divrem _, g => g == .rem
  | .encode, g => g == .cw
  | .check, g => g == .synd
  | .enumFirst _, g => g == .evec
  | .enumNext, g => g == .evec
  | .analyzeW w, .row v _ => v == w
  | .analyzeW _, _ => false
  | .analyze, .rows => true
  | .analyze, .row _ _ => true
  | .analyze, _ => false
  | .run, .cw => true
  | .run, .rows => true
  | .run, .row _ _ => true
  | .run, _ => false

/-- The bits of STATUS in a command's write set, beside BUSY and DONE: ERRDET for CHECK, ENUM_VALID for
ENUM_FIRST and ENUM_NEXT (10_state.md R46, R47). -/
def writeSetStatus : Instr → Word
  | .check => 1#32 <<< errdetBit
  | .enumFirst _ => 1#32 <<< enumValidBit
  | .enumNext => 1#32 <<< enumValidBit
  | .nop => 0
  | .divrem _ => 0
  | .encode => 0
  | .analyzeW _ => 0
  | .analyze => 0
  | .run => 0

/-- The bits of a register that a read draws, because the pending command writes them: every bit of a
register of its write set, and the named bits of STATUS. "An illegal command word has an empty write set"
(10_state.md R46, R47). -/
def Regs.drawnBits (r : Regs) (g : Reg) : Word :=
  if r.status.busy then
    match decode r.pend with
    | .ok i => if g = .status then writeSetStatus i else if writeSet i g then BitVec.allOnes 32 else 0
    | .error _ => 0
  else 0

/-- What a read of register `g` answers, `fresh` being the drawn word (10_state.md R47). -/
def Regs.readReg (r : Regs) (fresh : Word) (g : Reg) : Word :=
  (r.peek g &&& ~~~(r.drawnBits g)) ||| (fresh &&& r.drawnBits g)

/-- The bits that a read at an offset draws. -/
def Regs.drawnAt (r : Regs) (off : Nat) : Word :=
  match regAt off with
  | some g => r.drawnBits g
  | none => 0

/-- `MemRead` (43_control.md R183); a reserved offset reads 0. -/
def Regs.readAt (r : Regs) (fresh : Word) (off : Nat) : Word :=
  match regAt off with
  | some g => r.readReg fresh g
  | none => 0

/-! ### Writing -/

/-- `issue(v)` (43_control.md R182): dropped while BUSY or FAULT is 1; otherwise latched, with no check. -/
def Regs.issue (r : Regs) (v : Word) : Regs :=
  if r.status.busy || r.status.fault then r.dropWrite else r.latch v

/-- A write of an operand or configuration register: dropped while BUSY = 1 (10_state.md R48). -/
def Regs.unlessBusy (r : Regs) (written : Regs) : Regs :=
  if r.status.busy then r.dropWrite else written

/-- A write to CTRL: with bit 1 set a soft reset, which discards the IE bit of the same write; otherwise
IE <- v[0] (10_state.md R23, 43_control.md R184). -/
def Regs.writeCtrl (r : Regs) (v : Word) : Regs :=
  if v.getLsbD 1 then Regs.reset else { r with ie := v.getLsbD 0 }

/-- An accepted write of CFG_N: stores bits [5:0] and ends the enumeration (10_state.md R36). -/
def Regs.writeCfgN (r : Regs) (v : Word) : Regs :=
  { r with cfgN := v.setWidth 6, status := { r.status with enumValid := false } }

/-- The effect of writing `v` to register `g` (43_control.md R181); a write to a read-only register is
ignored (10_state.md R49). -/
def Regs.writeReg (r : Regs) (v : Word) : Reg → Regs
  | .ctrl => r.writeCtrl v
  | .status => { r with status := r.status.writeOneToClear v }
  | .cmd => r.issue v
  | .gpoly => r.unlessBusy { r with gpoly := v }
  | .gdeg => r.unlessBusy { r with gdeg := v.setWidth 5 }
  | .cfgN => r.unlessBusy (r.writeCfgN v)
  | .info => r.unlessBusy { r with info := v }
  | .cw => r.unlessBusy { r with cw := v }
  | .rx => r.unlessBusy { r with rx := v }
  | .divd => r.unlessBusy { r with divd := v }
  | .kView => r
  | .rem => r
  | .synd => r
  | .evec => r
  | .rows => r
  | .row _ _ => r

/-- `hostWrite(off, v)` (43_control.md R181); a reserved offset ignores the write. -/
def Regs.writeAt (r : Regs) (off : Nat) (v : Word) : Regs :=
  match regAt off with
  | some g => r.writeReg v g
  | none => r

/-! ### The bus -/

/-- The offset of a host address in a window of 1 KiB at `base` (20_memory.md R60). -/
def windowOffset (base addr : Nat) : Option Nat :=
  if base ≤ addr ∧ addr < base + 0x400 then some (addr - base) else none

/-- "exactly one access form: a 32-bit read or write at an offset that is a multiple of 4"
(20_memory.md R61). -/
def acceptedForm (off bits : Nat) : Bool := decide (bits = 32) && decide (off % 4 = 0)

/-- The counter of draws after a read: a drawn read takes the next word (10_state.md R47). -/
def State.countDraw (s : State) (off : Nat) : Nat :=
  if s.regs.drawnAt off = 0 then s.draws else s.draws + 1

/-- An accepted read: the host gets the word; the block does not change (20_memory.md R65). -/
def State.hostRead (s : State) (off : Nat) : State :=
  { s with
    host := { s.host with last := s.regs.readAt (Config.freeWord s.draws) off }
    draws := s.countDraw off }

/-- An accepted write. -/
def State.hostWrite (s : State) (off : Nat) (v : Word) : State := s.withRegs (s.regs.writeAt off v)

/-- An accepted access at an offset, one atomic step (20_memory.md R64), on the registers themselves: that
the window is mapped as device (uncached, unbuffered) memory is the premise that R74 has a model state (log
entry 18). -/
def State.accessAt (s : State) (off : Nat) : BusOp → State
  | .read => s.hostRead off
  | .write v => s.hostWrite off v

/-- One access on the host port. An address outside the window does not reach the block (20_memory.md
R60, log entry 6); any form but an aligned 32-bit one is a bus error (R62). -/
def busAccess (a : BusAccess) (s : State) : Host.Outcome State Fault Refusal :=
  match windowOffset Config.cycBase a.addr with
  | none => .fault .outsideWindow
  | some off => if acceptedForm off a.bits then .next (s.accessAt off a.op) else .fault .busError

end Sys2Proof.Machine
end

