-- ==== Sys2Proof/Machine/HostProgram.lean ====
section
/-! DEFINITION. The Host agent's step: the statements of a host program (30_encoding.md R89), and the
assembler and pseudo-instructions that write one (R89, R90). -/

namespace Sys2Proof.Machine

/-! ### Running a host program -/

/-- Whether a condition holds of the last value read. -/
def HostCond.test (c : HostCond) (v : Word) : Bool := (v &&& c.mask == c.expect) == c.holds

/-- The position of the first statement `label: l`. -/
def labelPos : List HostStmt → Nat → Option Nat
  | [], _ => none
  | .label k :: rest, l => if k = l then some 0 else (labelPos rest l).map (· + 1)
  | .access _ :: rest, l => (labelPos rest l).map (· + 1)
  | .branch _ _ :: rest, l => (labelPos rest l).map (· + 1)

/-- The host goes to a position of its program. -/
def State.hostAt (s : State) (p : Nat) : State := { s with host := { s.host with pos := p } }

/-- The next statement of the host program; none when the program has ended. -/
def State.hostStmt (s : State) : Option HostStmt := s.host.prog[s.host.pos]?

/-- A branch taken: on to its label. A label the program does not have is `undefinedLabel` (log entry 7). -/
def hostGoto (l : Nat) (s : State) : Host.Outcome State Fault Refusal :=
  match labelPos s.host.prog l with
  | some p => .next (s.hostAt p)
  | none => .fault .undefinedLabel

/-- One statement of the host program, whose access is the step's one access of the block. -/
def runStmt (st : HostStmt) (s : State) : Host.Outcome State Fault Refusal :=
  match st with
  | .access a => busAccess a (s.hostAt (s.host.pos + 1))
  | .label _ => .next (s.hostAt (s.host.pos + 1))
  | .branch c l => if c.test s.host.last then hostGoto l s else .next (s.hostAt (s.host.pos + 1))

/-- The Host agent's step. A host whose program has ended does nothing: with BUSY = 0 the block "is idle
and does nothing until the next host access" (60_exceptions.md R224). The statements reach the block one at a
time, in program order: the premise on the host's memory system that 20_memory.md R69 has a model state (log
entry 17). -/
def hostStep (s : State) : Host.Outcome State Fault Refusal :=
  match s.hostStmt with
  | some st => runStmt st s
  | none => .next s

/-! ### The assembler (R89) and the pseudo-instructions (R90) -/

/-- `wr REG, value`: `MemWrite(CYC_BASE + off(REG), 4, value)`. -/
def asmWr (g : Reg) (v : Word) : HostStmt :=
  .access { addr := Config.cycBase + g.offset, bits := 32, op := .write v }

/-- `rd REG`: `MemRead(CYC_BASE + off(REG), 4)`. -/
def asmRd (g : Reg) : HostStmt :=
  .access { addr := Config.cycBase + g.offset, bits := 32, op := .read }

/-- `(value & mask) == 0`. -/
def condClear (mask : Word) : HostCond := { mask := mask, expect := 0, holds := true }

/-- `(value & mask) != 0`. -/
def condSet (mask : Word) : HostCond := { mask := mask, expect := 0, holds := false }

/-- `cmd MNEMONIC [arg]` is `wr CMD, encode(MNEMONIC, arg)`. It has no range check: for an argument above 63
it writes what `encode` gives (DESIGN CHOICE, log entry 19). -/
def asmCmd (i : Instr) : List HostStmt := [asmWr .cmd (Sys2Proof.encode i)]

/-- `wait` is `w: rd STATUS` followed by `if (value & 1) != 0 goto w`; `w` is the label it takes. -/
def asmWait (w : Nat) : List HostStmt := [.label w, asmRd .status, .branch (condSet 1) w]

/-- `exec MNEMONIC [arg]` is `cmd MNEMONIC [arg]` followed by `wait`. -/
def asmExec (i : Instr) (w : Nat) : List HostStmt := asmCmd i ++ asmWait w

/-- `clear` is `wr STATUS, 0x00000022`. -/
def asmClear : List HostStmt := [asmWr .status 0x00000022#32]

/-- `srst` is `wr CTRL, 0x00000002`. -/
def asmSrst : List HostStmt := [asmWr .ctrl 0x00000002#32]

end Sys2Proof.Machine
end

