-- ==== Sys2Proof/Machine/Agents.lean ====
section
/-! DEFINITION. The four kinds of step (00_scope.md R12) and whose turn it is: the Core's completion step
(43_control.md R186), the Host's step, and the hardware reset (70_reset_and_hazards.md R240). -/

namespace Sys2Proof.Machine

/-- `complete()` (43_control.md R186): PEND is decoded; an illegal word faults ILLEGAL_CMD before every
other check (60_exceptions.md R202). -/
def completePending (s : State) : Host.Outcome State Fault Refusal :=
  match Sys2Proof.decode s.regs.pend with
  | .ok i => exec i s
  | .error _ => .next (s.takeFault .illegalCmd)

/-- The Core's one step, "enabled exactly when STATUS.BUSY = 1" (00_scope.md R12). A turn given to a Core
that is not enabled passes with no effect. -/
def coreStep (s : State) : Host.Outcome State Fault Refusal :=
  if s.regs.status.busy then completePending s else .next s

/-- The step of the agent whose turn it is. -/
def agentStep (t : Turn) (s : State) : Host.Outcome State Fault Refusal :=
  match t with
  | .host => hostStep s
  | .core => coreStep s
  | .rst => .next s.resetBlock

/-- The turn that closes a round: the Core's when its completion is enabled, and otherwise the Host's. So a
completion that BUSY = 1 enables comes unless a reset comes first, and a host that waits goes on: "So `wait`
terminates" (70_reset_and_hazards.md R255; log entry 2). -/
def closingTurn (f : Status) : Turn := if f.busy then .core else .host

/-- Whose turn it is, and the state with that turn taken. The listed turns are a round's; when they are used
up the closing turn comes, and the next round's turns are free: any finite list, so that "nothing else about
time is assumed" (70_reset_and_hazards.md R255; log entry 2). -/
def takeTurn (s : State) : Turn × State :=
  match s.sched with
  | t :: rest => (t, { s with sched := rest })
  | [] =>
    (closingTurn s.regs.status,
      { s with sched := Config.freeTurns s.rounds, rounds := s.rounds + 1 })

/-- The state in which command word `v` has just been issued and the Core has the next turn. -/
def State.issuedNext (s : State) (v : Word) : State :=
  { s with regs := s.regs.latch v, sched := .core :: s.sched }

end Sys2Proof.Machine
end

