-- ==== Sys2Proof/Machine/Step.lean ====
section
/-! DEFINITION. One step of the machine (00_scope.md R12), and how an instruction comes to be the next one
to run. -/

namespace Sys2Proof.Machine

/-- One step: the agent whose turn it is takes its step. -/
def step (s : State) : Host.Outcome State Fault Refusal :=
  agentStep (takeTurn s).1 (takeTurn s).2

/-- The block fetches nothing: a command is executed because it was latched into PEND at its issue
(10_state.md R21, 43_control.md R182). So the instruction is placed as an issue places it (PEND, BUSY = 1,
DONE = 0), with the Core's turn next (log entry 9). -/
def State.withFetchWord (s : State) (nbits w : Nat) : State :=
  s.issuedNext (Sys2Proof.tableWord nbits w)

end Sys2Proof.Machine
end

