-- ==== Sys2Proof/Safety.lean ====
section
/-! DEFINITION. What counts as a safe and a finished run (70_reset_and_hazards.md R254), and the invariants of
the block that the spec's prose states: which STATUS values can occur (10_state.md R26 to R32,
60_exceptions.md R217), what a live enumeration is (42_analyzer.md R143), and the ranges of a report row
(10_state.md R38). -/

namespace Sys2Proof.Machine

/-! ### Runs -/

/-- A run of a host program is finished "when the host program has ended and STATUS.BUSY = 0"
(70_reset_and_hazards.md R254). -/
def State.finished (s : State) : Bool := s.hostStmt.isNone && !s.regs.status.busy

/-- The premise of a claim about a run: "FAULT = 0 and WERR = 0 at the end" (70_reset_and_hazards.md R254). -/
def State.endedClean (s : State) : Bool :=
  s.finished && !s.regs.status.fault && !s.regs.status.werr

/-- The state a step answers, if it answers one. -/
def nextState : Host.Outcome State Fault Refusal → Option State
  | .next s => some s
  | .fault _ => none
  | .refused _ => none

/-- A safe step goes on: no bus error, no access outside the window, no undefined label, no refusal. -/
def safeStep (s : State) : Bool := (nextState (step s)).isSome

/-! ### Invariants -/

/-- DONE and FAULT are 0 during the BUSY interval (10_state.md R27, R47), never both 1 (60_exceptions.md
R217), and CAUSE is 0 exactly while FAULT = 0 (10_state.md R32). -/
def Status.coherent (f : Status) : Bool :=
  (!f.busy || (!f.done && !f.fault)) && !(f.done && f.fault) && (f.fault == decide (f.cause ≠ .none))

/-- While ENUM_VALID = 1, the codeword length is legal and EVEC[31:N] = 0 (42_analyzer.md R143). -/
def Regs.enumeratorInRange (r : Regs) : Bool :=
  !r.status.enumValid ||
    (decide (1 ≤ r.codeLength) && decide (r.codeLength ≤ Config.nMax) && noBitFrom r.evec r.codeLength)

/-- The largest TOTAL, C(32,16) (10_state.md R38). -/
def maxTotal : Nat := 601080390

/-- A row that holds a result lies in the ranges of 10_state.md R38; a row that holds none is all zero. -/
def Row.inRange (row : Row) (w : Nat) : Prop :=
  row = Row.empty ∨
    (row.weight.toNat = w ∧ 1 ≤ row.total.toNat ∧ row.total.toNat ≤ maxTotal ∧
      row.det.toNat ≤ row.total.toNat ∧ row.rate.toNat ≤ 10000)

/-- Every report row is in range, and ROWS is at most 32 (10_state.md R38, R39). -/
def Regs.reportInRange (r : Regs) : Prop :=
  r.rows.toNat ≤ 32 ∧ ∀ w, 1 ≤ w → w ≤ 32 → (r.rowAt w).inRange w

end Sys2Proof.Machine
end

