-- ==== Sys2Proof/Certificates/Slice0/Obligations.lean ====
section
/-! DEFINITION. The statements for the provers. The vocabulary of the spec's conditions is written out here
bit by bit (`Claims`), apart from the model's own Bool checks. A statement that gives the whole next state as
an equation says its frame with it: every field not named keeps its value. The block has no memory
(10_state.md R52); the window's registers are its whole address space. -/

namespace Sys2Proof.Claims

open Sys2Proof.Machine

/-- `GOK` (00_scope.md R6): the coefficient at the degree is 1 and every one above it is 0. -/
abbrev generatorWellFormed (g : Word) (z : Nat) : Prop :=
  g.getLsbD z = true ∧ ∀ j, j < 32 → z < j → g.getLsbD j = false

/-- `CfgOK` (00_scope.md R6). -/
abbrev configLegal (n z : Nat) : Prop := 1 ≤ n ∧ n ≤ 32 ∧ z < n

/-- `v[31:n] = 0` (00_scope.md R8). -/
abbrev clearFrom (v : Word) (n : Nat) : Prop := ∀ j, j < 32 → n ≤ j → v.getLsbD j = false

/-- The state before the command, except for FAULT, CAUSE and BUSY (60_exceptions.md R210). -/
def faultedWith (s : State) (c : Cause) : State :=
  { s with regs := { s.regs with status := { s.regs.status with fault := true, cause := c, busy := false } } }

/-- The state with registers `r`, then BUSY = 0 and DONE = 1 (43_control.md R186). -/
def doneWith (s : State) (r : Regs) : State :=
  { s with regs := { r with status := { r.status with busy := false, done := true } } }

/-- GOK of the configured generator. -/
abbrev gOk (r : Regs) : Prop := generatorWellFormed r.gpoly r.gdeg.toNat

/-- CfgOK of the configuration. -/
abbrev cOk (r : Regs) : Prop := configLegal r.cfgN.toNat r.gdeg.toNat

/-- The number of 1 bits (00_scope.md R8). -/
def popcount (v : Word) : Nat := (List.range 32).countP fun j => v.getLsbD j

/-- The polynomial over GF(2) that a register holds: bit j is the coefficient of x^j (00_scope.md R7). -/
noncomputable def polyOf (v : Word) : Polynomial (ZMod 2) :=
  ∑ j ∈ Finset.range 32, if v.getLsbD j then Polynomial.X ^ j else 0

/-- Every register, field and derived value of 10_state.md R51; PEND is meaningless there and not named. -/
def blockReset (r : Regs) : Prop :=
  r.ie = false ∧ r.status.busy = false ∧ r.status.done = false ∧ r.status.fault = false ∧
  r.status.errdet = false ∧ r.status.enumValid = false ∧ r.status.werr = false ∧
  r.status.cause.code = 0 ∧ r.gpoly = 0x0000000B#32 ∧ r.gdeg = 3 ∧ r.cfgN = 7 ∧ r.peek .kView = 4 ∧
  r.info = 0 ∧ r.cw = 0 ∧ r.rx = 0 ∧ r.divd = 0 ∧ r.rem = 0 ∧ r.synd = 0 ∧ r.evec = 0 ∧ r.rows = 0 ∧
  (∀ w f, 1 ≤ w → w ≤ 32 → r.peek (.row w f) = 0) ∧ r.irq = false

/-- `m` ENUM_NEXT commands, one completion after another, from a state. -/
def afterNexts : Nat → State → Option State
  | 0, s => some s
  | m + 1, s =>
    match afterNexts m s with
    | some t => nextState (exec .enumNext t)
    | none => none

/-- The operand and configuration registers, with CMD: what a host write drops during BUSY
(10_state.md R48). -/
def droppedOffsets : List Nat := [0x008, 0x010, 0x014, 0x018, 0x020, 0x024, 0x028, 0x02C]

/-- The offsets of read-only registers below the report (10_state.md R20). -/
def readOnlyOffsets : List Nat := [0x01C, 0x030, 0x034, 0x038, 0x03C]

/-- The reserved offsets of the window (10_state.md R20, 20_memory.md R67). -/
def reservedOffset (off : Nat) : Prop :=
  off = 0x00C ∨ (0x040 ≤ off ∧ off < 0x110) ∨ (0x310 ≤ off ∧ off < 0x400)

end Sys2Proof.Claims

open Sys2Proof Sys2Proof.Machine Sys2Proof.Claims

/-! ### Encoding (30_encoding.md) -/

/-- Words written out from the format of R80 decode to the command they stand for; one word of each kind
of illegal encoding is refused. -/
def Obligations.WrittenWordsDecode : Prop :=
  decode 0x00000000#32 = .ok .nop ∧ decode 0x00000401#32 = .ok (.divrem 4) ∧
  decode 0x00000002#32 = .ok .encode ∧ decode 0x00000003#32 = .ok .check ∧
  decode 0x00000204#32 = .ok (.enumFirst 2) ∧ decode 0x00000005#32 = .ok .enumNext ∧
  decode 0x00000306#32 = .ok (.analyzeW 3) ∧ decode 0x00000007#32 = .ok .analyze ∧
  decode 0x00000008#32 = .ok .run ∧ decode 0x00003F04#32 = .ok (.enumFirst 63) ∧
  decode 0x00000009#32 = .error .reservedOpcode ∧ decode 0x000000FF#32 = .error .reservedOpcode ∧
  decode 0x00000100#32 = .error .argNotZero ∧ decode 0x00004000#32 = .error .reservedBits

/-- R81: a word decodes to a row's command exactly when it matches the row under its mask, the argument being
`word[13:8]`; a word that matches no row is illegal. -/
def Obligations.DecodeAgreesWithOpcodeMap : Prop :=
  ∀ v : Word,
    (decode v = .ok .nop ↔ v &&& 0xFFFFFFFF#32 = 0x00000000#32) ∧
    (∀ n, decode v = .ok (.divrem n) ↔ v &&& 0xFFFFC0FF#32 = 0x00000001#32 ∧ n = (v.extractLsb' 8 6).toNat) ∧
    (decode v = .ok .encode ↔ v &&& 0xFFFFFFFF#32 = 0x00000002#32) ∧
    (decode v = .ok .check ↔ v &&& 0xFFFFFFFF#32 = 0x00000003#32) ∧
    (∀ n, decode v = .ok (.enumFirst n) ↔ v &&& 0xFFFFC0FF#32 = 0x00000004#32 ∧ n = (v.extractLsb' 8 6).toNat) ∧
    (decode v = .ok .enumNext ↔ v &&& 0xFFFFFFFF#32 = 0x00000005#32) ∧
    (∀ n, decode v = .ok (.analyzeW n) ↔ v &&& 0xFFFFC0FF#32 = 0x00000006#32 ∧ n = (v.extractLsb' 8 6).toNat) ∧
    (decode v = .ok .analyze ↔ v &&& 0xFFFFFFFF#32 = 0x00000007#32) ∧
    (decode v = .ok .run ↔ v &&& 0xFFFFFFFF#32 = 0x00000008#32)

/-- R83 to R85, R202: a word is illegal exactly when a reserved bit is set, ARG is set on an opcode without an
argument, or OP is 0x09 to 0xFF; and its completion is fault ILLEGAL_CMD in every state, before any other
check. -/
def Obligations.IllegalWordsFaultIllegalCmd : Prop :=
  ∀ s : State,
    ((s.regs.pend.extractLsb' 14 18 ≠ 0#18 ∨
      ((s.regs.pend.extractLsb' 0 8).toNat ∈ [0x00, 0x02, 0x03, 0x05, 0x07, 0x08] ∧
        s.regs.pend.extractLsb' 8 6 ≠ 0#6) ∨
      0x09 ≤ (s.regs.pend.extractLsb' 0 8).toNat) ↔ ∃ e, decode s.regs.pend = .error e) ∧
    ((∃ e, decode s.regs.pend = .error e) → completePending s = .next (faultedWith s .illegalCmd))

/-- Every well-formed command, with every argument, survives encoding and decoding. -/
def Obligations.DecodeOfEncodeIsIdentity : Prop :=
  ∀ i : Instr, i.wellFormed = true → decode (encode i) = .ok i

/-- A word has one meaning: what decodes to a command is that command's word, and the command is
well-formed. -/
def Obligations.EncodeOfDecodeIsIdentity : Prop :=
  ∀ (v : Word) (i : Instr), decode v = .ok i → i.wellFormed = true ∧ encode i = v

/-- 20_memory.md R63: byte lane b carries bits 8b+7 to 8b, the lanes make up the word, and a byte image that
begins with a word's lanes decodes as the word. -/
def Obligations.ByteLanesAreLittleEndian : Prop :=
  ∀ (v : Word) (rest : List Byte),
    (∀ b j, b < 4 → j < 8 → (byteLane v b).getLsbD j = v.getLsbD (8 * b + j)) ∧
    wordOfBytes (byteLane v 0) (byteLane v 1) (byteLane v 2) (byteLane v 3) = v ∧
    (∀ i, decode v = .ok i → decodeBytes (bytesOfWord v ++ rest) = .ok (i, rest)) ∧
    (∀ e, decode v = .error e → decodeBytes (bytesOfWord v ++ rest) = .error e)

/-! ### The GF(2) engine (40_gf2_engine.md) -/

/-- R100, R101: under its preconditions, polymod is the remainder of polynomial division over GF(2), as
Mathlib defines it for a monic divisor. -/
def Obligations.PolymodIsPolynomialRemainder : Prop :=
  ∀ (a g : Word) (len z : Nat), len ≤ 32 → z ≤ 31 → generatorWellFormed g z → clearFrom a len →
    polyOf (polymod a len g z) = polyOf a %ₘ polyOf g

/-- R101: the six properties of polymod. -/
def Obligations.PolymodProperties : Prop :=
  ∀ (a b g : Word) (len z : Nat), len ≤ 32 → z ≤ 31 → generatorWellFormed g z →
    clearFrom a len → clearFrom b len →
    (clearFrom (polymod a len g z) len ∧ clearFrom (polymod a len g z) z) ∧
    (len ≤ z → polymod a len g z = a) ∧
    (∀ len', len ≤ len' → len' ≤ 32 → polymod a len g z = polymod a len' g z) ∧
    (z = 0 → polymod a len g z = 0) ∧
    polyOf g ∣ polyOf (a ^^^ polymod a len g z) ∧
    (∀ r : Word, clearFrom r z → polyOf g ∣ polyOf (a ^^^ r) → r = polymod a len g z) ∧
    polymod (a ^^^ b) len g z = polymod a len g z ^^^ polymod b len g z ∧
    (polymod a len g z = 0 ↔ polyOf g ∣ polyOf a)

/-- R102: DIVREM's word, its checks in order, each with its fault, and its effect; the dividend length is N
for LEN = 0. Every other field keeps its value. -/
def Obligations.DivremWritesRemainder : Prop :=
  (∀ n, n < 64 → decode (0x00000001#32 ||| (BitVec.ofNat 32 n <<< 8)) = .ok (.divrem n)) ∧
  ∀ (len n : Nat) (s : State), n = (if len = 0 then s.regs.cfgN.toNat else len) →
    (¬ gOk s.regs → exec (.divrem len) s = .next (faultedWith s .malformedPoly)) ∧
    (gOk s.regs → len = 0 → ¬ cOk s.regs → exec (.divrem len) s = .next (faultedWith s .badConfig)) ∧
    (gOk s.regs → 32 < len → exec (.divrem len) s = .next (faultedWith s .badArg)) ∧
    (gOk s.regs → (len = 0 → cOk s.regs) → len ≤ 32 → ¬ clearFrom s.regs.divd n →
      exec (.divrem len) s = .next (faultedWith s .operandRange)) ∧
    (gOk s.regs → (len = 0 → cOk s.regs) → len ≤ 32 → clearFrom s.regs.divd n →
      exec (.divrem len) s = .next (doneWith s
        { s.regs with rem := polymod s.regs.divd n s.regs.gpoly s.regs.gdeg.toNat }))

/-- R102, corner cases, of a DIVREM that completes: REM = DIVD when L ≤ Z; REM = 0 when DIVD = 0, when Z = 0,
and when DIVD = GPOLY with L ≥ Z + 1; and REM has no bit from min(L, Z) on (10_state.md R44). -/
def Obligations.DivremCornerCases : Prop :=
  ∀ (len n : Nat) (s : State), n = (if len = 0 then s.regs.cfgN.toNat else len) →
    gOk s.regs → (len = 0 → cOk s.regs) → len ≤ 32 → clearFrom s.regs.divd n →
    ∃ t, exec (.divrem len) s = .next t ∧
      (n ≤ s.regs.gdeg.toNat → t.regs.rem = s.regs.divd) ∧
      (s.regs.divd = 0 → t.regs.rem = 0) ∧
      (s.regs.gdeg = 0 → t.regs.rem = 0) ∧
      (s.regs.divd = s.regs.gpoly → s.regs.gdeg.toNat + 1 ≤ n → t.regs.rem = 0) ∧
      clearFrom t.regs.rem n ∧ clearFrom t.regs.rem s.regs.gdeg.toNat

/-! ### The codec (41_codec.md) -/

/-- R120, R121: ENCODE's word, its checks in order, and its effect: CW is the shifted information vector XOR
its remainder. Every other field keeps its value. -/
def Obligations.EncodeWritesCodeword : Prop :=
  decode 0x00000002#32 = .ok .encode ∧
  ∀ (s : State) (n z : Nat), n = s.regs.cfgN.toNat → z = s.regs.gdeg.toNat →
    (¬ gOk s.regs → exec .encode s = .next (faultedWith s .malformedPoly)) ∧
    (gOk s.regs → ¬ cOk s.regs → exec .encode s = .next (faultedWith s .badConfig)) ∧
    (gOk s.regs → cOk s.regs → ¬ clearFrom s.regs.info (n - z) →
      exec .encode s = .next (faultedWith s .operandRange)) ∧
    (gOk s.regs → cOk s.regs → clearFrom s.regs.info (n - z) →
      exec .encode s = .next (doneWith s
        { s.regs with
          cw := (s.regs.info <<< z) ^^^ polymod (s.regs.info <<< z) n s.regs.gpoly z }))

/-- R122: the codeword's remainder is zero; the code is systematic; encoding is linear. -/
def Obligations.CodewordProperties : Prop :=
  ∀ (info info' g : Word) (k z : Nat), configLegal (k + z) z → generatorWellFormed g z →
    clearFrom info k → clearFrom info' k →
    polymod (encodeInfo info k g z) (k + z) g z = 0 ∧
    polyOf g ∣ polyOf (encodeInfo info k g z) ∧
    (∀ j, j < k → (encodeInfo info k g z).getLsbD (z + j) = info.getLsbD j) ∧
    (∀ j, j < z → (encodeInfo info k g z).getLsbD j = (polymod (info <<< z) (k + z) g z).getLsbD j) ∧
    clearFrom (encodeInfo info k g z) (k + z) ∧
    encodeInfo (info ^^^ info') k g z = encodeInfo info k g z ^^^ encodeInfo info' k g z

/-- The source's guarantee at the level of commands (95_test_vectors.md S2, S4): ENCODE, then RX <- CW and
CHECK, gives SYND = 0 and ERRDET = 0. -/
def Obligations.CheckOfEncodedWordIsClean : Prop :=
  ∀ s : State, gOk s.regs → cOk s.regs → clearFrom s.regs.info (s.regs.cfgN.toNat - s.regs.gdeg.toNat) →
    ∃ t u, exec .encode s = .next t ∧
      exec .check { t with regs := { t.regs with rx := t.regs.cw } } = .next u ∧
      u.regs.synd = 0 ∧ u.regs.status.errdet = false ∧ u.regs.status.done = true ∧
      u.regs.status.fault = s.regs.status.fault

/-- R123, R124: CHECK's word, its checks in order, and its effect on SYND and ERRDET. Every other field keeps
its value. -/
def Obligations.CheckWritesSyndrome : Prop :=
  decode 0x00000003#32 = .ok .check ∧
  ∀ (s : State) (synd : Word),
    synd = polymod s.regs.rx s.regs.cfgN.toNat s.regs.gpoly s.regs.gdeg.toNat →
    (¬ gOk s.regs → exec .check s = .next (faultedWith s .malformedPoly)) ∧
    (gOk s.regs → ¬ cOk s.regs → exec .check s = .next (faultedWith s .badConfig)) ∧
    (gOk s.regs → cOk s.regs → ¬ clearFrom s.regs.rx s.regs.cfgN.toNat →
      exec .check s = .next (faultedWith s .operandRange)) ∧
    (gOk s.regs → cOk s.regs → clearFrom s.regs.rx s.regs.cfgN.toNat →
      exec .check s = .next (doneWith s
        { s.regs with synd := synd, status := { s.regs.status with errdet := decide (synd ≠ 0) } }))

/-- R125: on a codeword, detection depends on the error vector alone, and an error vector is undetected exactly
when it is a multiple of g. -/
def Obligations.DetectionDependsOnErrorOnly : Prop :=
  ∀ (c e g : Word) (n z : Nat), configLegal n z → generatorWellFormed g z → clearFrom c n → clearFrom e n →
    polymod c n g z = 0 →
    hasError (c ^^^ e) n g z = hasError e n g z ∧
    (hasError e n g z = false ↔ polyOf g ∣ polyOf e) ∧
    (hasError e n g z = false ↔ ∃ info, clearFrom info (n - z) ∧ e = encodeInfo info (n - z) g z)

/-! ### The enumerator (42_analyzer.md) -/

/-- R140: E(n, w) lists every vector of length n and weight w exactly once, C(n, w) of them, in increasing
lexicographic order of their positions, position p being bit n-1-p. -/
def Obligations.ErrorVectorsListEveryPatternOnce : Prop :=
  ∀ n w : Nat, w ≤ n → n ≤ 32 →
    (∀ v : Word, v ∈ errorVectors n w ↔ clearFrom v n ∧ popcount v = w) ∧
    (errorVectors n w).Nodup ∧ (errorVectors n w).length = n.choose w ∧
    (errorVectors n w).Pairwise (fun u v => positionsOf n u < positionsOf n v) ∧
    (∀ (v : Word) (p : Nat), p < n → (p ∈ positionsOf n v ↔ v.getLsbD (n - 1 - p) = true))

/-- R141: `first` is element 0 of E(n, w); `next` of an element is the element after it, or (false, 0) for the
last. -/
def Obligations.NextFollowsEnumeration : Prop :=
  ∀ n w : Nat, w ≤ n → n ≤ 32 →
    (errorVectors n w)[0]? = some (firstVector n w) ∧
    (∀ m v v', (errorVectors n w)[m]? = some v → (errorVectors n w)[m + 1]? = some v' →
      nextVector n v = (true, v')) ∧
    (∀ m v, (errorVectors n w)[m]? = some v → (errorVectors n w)[m + 1]? = none →
      nextVector n v = (false, 0)) ∧
    nextVector n 0 = (false, 0)

/-- R142: ENUM_FIRST's word, its checks in order, and its effect on EVEC and ENUM_VALID. GPOLY plays no part.
Every other field keeps its value. -/
def Obligations.EnumFirstStartsEnumeration : Prop :=
  (∀ n, n < 64 → decode (0x00000004#32 ||| (BitVec.ofNat 32 n <<< 8)) = .ok (.enumFirst n)) ∧
  ∀ (w : Nat) (s : State),
    (¬ cOk s.regs → exec (.enumFirst w) s = .next (faultedWith s .badConfig)) ∧
    (cOk s.regs → s.regs.cfgN.toNat < w → exec (.enumFirst w) s = .next (faultedWith s .badArg)) ∧
    (cOk s.regs → w ≤ s.regs.cfgN.toNat →
      exec (.enumFirst w) s = .next (doneWith s
        { s.regs with
          evec := ((1#32 <<< w) - 1#32) <<< (s.regs.cfgN.toNat - w)
          status := { s.regs.status with enumValid := true } }))

/-- R143, checks and pseudocode: ENUM_NEXT's word, its checks in order, and its effect on EVEC and ENUM_VALID:
the successor, or 0 with ENUM_VALID = 0. Every other field keeps its value. -/
def Obligations.EnumNextStepsEnumeration : Prop :=
  decode 0x00000005#32 = .ok .enumNext ∧
  ∀ s : State,
    (¬ cOk s.regs → exec .enumNext s = .next (faultedWith s .badConfig)) ∧
    (cOk s.regs → s.regs.status.enumValid = false →
      exec .enumNext s = .next (faultedWith s .enumState)) ∧
    (cOk s.regs → s.regs.status.enumValid = true →
      exec .enumNext s = .next (doneWith s
        { s.regs with
          evec := (nextVector s.regs.cfgN.toNat s.regs.evec).2
          status := { s.regs.status with enumValid := (nextVector s.regs.cfgN.toNat s.regs.evec).1 } }))

/-- R143: after ENUM_FIRST W, the m-th successful command leaves element m of E(N, W) in EVEC with
ENUM_VALID = 1, and the one after the last leaves 0 with ENUM_VALID = 0; one more faults ENUM_STATE. -/
def Obligations.EnumerationVisitsEveryErrorVector : Prop :=
  ∀ (s : State) (w : Nat), cOk s.regs → w ≤ s.regs.cfgN.toNat →
    ∃ t, exec (.enumFirst w) s = .next t ∧
      (∀ m v, (errorVectors s.regs.cfgN.toNat w)[m]? = some v →
        ∃ u, afterNexts m t = some u ∧ u.regs.evec = v ∧ u.regs.status.enumValid = true ∧
          u.regs.status.done = true ∧ u.regs.status.fault = s.regs.status.fault) ∧
      ∃ u, afterNexts (s.regs.cfgN.toNat.choose w) t = some u ∧ u.regs.evec = 0 ∧
        u.regs.status.enumValid = false ∧ u.regs.status.fault = s.regs.status.fault ∧
        exec .enumNext u = .next (faultedWith u .enumState)

/-- The enumerator does not read g (R142, R143): with another GPOLY each of its commands does the same. -/
def Obligations.EnumeratorIgnoresGenerator : Prop :=
  ∀ (i : Instr) (s t : State) (g : Word), (i = .enumNext ∨ ∃ w, i = .enumFirst w) → exec i s = .next t →
    exec i { s with regs := { s.regs with gpoly := g } } = .next { t with regs := { t.regs with gpoly := g } }

/-- R249, R36: a write of CFG_N while BUSY = 0 ends the enumeration, whether or not the value changes: the next
ENUM_NEXT faults ENUM_STATE, or BAD_CONFIG where the new configuration is illegal. -/
def Obligations.ConfigWriteEndsEnumeration : Prop :=
  ∀ (s u : State) (v : Word), s.regs.status.busy = false → u = s.hostWrite 0x018 v →
    (cOk u.regs → exec .enumNext u = .next (faultedWith u .enumState)) ∧
    (¬ cOk u.regs → exec .enumNext u = .next (faultedWith u .badConfig))

/-! ### The analyzer (42_analyzer.md) -/

/-- R150: the row's four words: C(N, w), the number of error vectors whose received word has a non-zero
remainder, the rounded rate, and w, none of them truncated by the 32-bit registers. -/
def Obligations.DetectionRowCounts : Prop :=
  ∀ (cw g : Word) (n z w : Nat), configLegal n z → generatorWellFormed g z → clearFrom cw n → 1 ≤ w → w ≤ n →
    (detectionRow cw n g z w).total.toNat = n.choose w ∧
    (detectionRow cw n g z w).det.toNat =
      Nat.card { e : Word // clearFrom e n ∧ popcount e = w ∧ polymod (cw ^^^ e) n g z ≠ 0 } ∧
    (detectionRow cw n g z w).rate.toNat =
      rne ((detectionRow cw n g z w).det.toNat * 10000) (detectionRow cw n g z w).total.toNat ∧
    (detectionRow cw n g z w).weight.toNat = w

/-- R160: rne(p, q) is an integer nearest to p/q, and the even one where two are equally near. -/
def Obligations.RateRoundsToNearestTiesToEven : Prop :=
  ∀ p q : Nat, 1 ≤ q →
    2 * ((p : Int) - (q : Int) * (rne p q : Int)).natAbs ≤ q ∧
    (2 * ((p : Int) - (q : Int) * (rne p q : Int)).natAbs = q → rne p q % 2 = 0)

/-- R161, property 1: DET ≤ TOTAL and RATE ≤ 10000, with the bound of 10_state.md R38 on TOTAL. -/
def Obligations.DetectionRowRanges : Prop :=
  ∀ (cw g : Word) (n z w : Nat), configLegal n z → 1 ≤ w → w ≤ n →
    1 ≤ (detectionRow cw n g z w).total.toNat ∧ (detectionRow cw n g z w).total.toNat ≤ 601080390 ∧
    (detectionRow cw n g z w).det.toNat ≤ (detectionRow cw n g z w).total.toNat ∧
    (detectionRow cw n g z w).rate.toNat ≤ 10000

/-- R161, properties 3 and 4: on a codeword the row does not depend on the codeword; on any CW, DET counts the
error vectors whose remainder differs from that of CW. -/
def Obligations.DetectionRowDependsOnRemainderOnly : Prop :=
  ∀ (cw g : Word) (n z w : Nat), configLegal n z → generatorWellFormed g z → clearFrom cw n → 1 ≤ w → w ≤ n →
    (polymod cw n g z = 0 → detectionRow cw n g z w = detectionRow 0 n g z w) ∧
    detectedCount cw n g z w =
      (errorVectors n w).countP (fun e => decide (polymod e n g z ≠ polymod cw n g z))

/-- R161, property 5: with Z ≥ 1 and constant term 1, every single-bit error on a codeword is detected. -/
def Obligations.SingleBitErrorsAreDetected : Prop :=
  ∀ (cw g : Word) (n z : Nat), configLegal n z → generatorWellFormed g z → clearFrom cw n →
    polymod cw n g z = 0 → 1 ≤ z → g.getLsbD 0 = true →
    (detectionRow cw n g z 1).total.toNat = n ∧ (detectionRow cw n g z 1).det.toNat = n ∧
    (detectionRow cw n g z 1).rate.toNat = 10000

/-- R151: ANALYZE_W's word, its checks in order, and its effect: row W is the detection row, every other row
and every other field keep their values. -/
def Obligations.AnalyzeWWritesOneRow : Prop :=
  (∀ n, n < 64 → decode (0x00000006#32 ||| (BitVec.ofNat 32 n <<< 8)) = .ok (.analyzeW n)) ∧
  ∀ (w n : Nat) (s : State), n = s.regs.cfgN.toNat →
    (¬ gOk s.regs → exec (.analyzeW w) s = .next (faultedWith s .malformedPoly)) ∧
    (gOk s.regs → ¬ cOk s.regs → exec (.analyzeW w) s = .next (faultedWith s .badConfig)) ∧
    (gOk s.regs → cOk s.regs → (w = 0 ∨ n < w) → exec (.analyzeW w) s = .next (faultedWith s .badArg)) ∧
    (gOk s.regs → cOk s.regs → 1 ≤ w → w ≤ n → ¬ clearFrom s.regs.cw n →
      exec (.analyzeW w) s = .next (faultedWith s .operandRange)) ∧
    (gOk s.regs → cOk s.regs → 1 ≤ w → w ≤ n → clearFrom s.regs.cw n →
      ∃ rep : Vector Row 32,
        exec (.analyzeW w) s = .next (doneWith s { s.regs with report := rep }) ∧
        Regs.rowAt { s.regs with report := rep } w =
          detectionRow s.regs.cw n s.regs.gpoly s.regs.gdeg.toNat w ∧
        ∀ v, v ≠ w → Regs.rowAt { s.regs with report := rep } v = s.regs.rowAt v)

/-- R152: ANALYZE's word, its checks in order, and its effect: rows 1 to N are the detection rows, rows N+1 to
32 are cleared, ROWS is N. Every other field keeps its value. -/
def Obligations.AnalyzeWritesReport : Prop :=
  decode 0x00000007#32 = .ok .analyze ∧
  ∀ (n : Nat) (s : State), n = s.regs.cfgN.toNat →
    (¬ gOk s.regs → exec .analyze s = .next (faultedWith s .malformedPoly)) ∧
    (gOk s.regs → ¬ cOk s.regs → exec .analyze s = .next (faultedWith s .badConfig)) ∧
    (gOk s.regs → cOk s.regs → ¬ clearFrom s.regs.cw n →
      exec .analyze s = .next (faultedWith s .operandRange)) ∧
    (gOk s.regs → cOk s.regs → clearFrom s.regs.cw n →
      ∃ rep : Vector Row 32,
        exec .analyze s = .next (doneWith s { s.regs with rows := s.regs.cfgN, report := rep }) ∧
        ∀ w, 1 ≤ w → w ≤ 32 → Regs.rowAt { s.regs with report := rep } w =
          if w ≤ n then detectionRow s.regs.cw n s.regs.gpoly s.regs.gdeg.toNat w
          else { total := 0, det := 0, rate := 0, weight := 0 })

/-- R153: RUN's word, its checks in order, and its effect: CW is the codeword of INFO, and ROWS and the rows
are the report of the new CW. Every other field keeps its value. -/
def Obligations.RunEncodesAndAnalyzes : Prop :=
  decode 0x00000008#32 = .ok .run ∧
  ∀ (n z : Nat) (c : Word) (s : State), n = s.regs.cfgN.toNat → z = s.regs.gdeg.toNat →
    c = (s.regs.info <<< z) ^^^ polymod (s.regs.info <<< z) n s.regs.gpoly z →
    (¬ gOk s.regs → exec .run s = .next (faultedWith s .malformedPoly)) ∧
    (gOk s.regs → ¬ cOk s.regs → exec .run s = .next (faultedWith s .badConfig)) ∧
    (gOk s.regs → cOk s.regs → ¬ clearFrom s.regs.info (n - z) →
      exec .run s = .next (faultedWith s .operandRange)) ∧
    (gOk s.regs → cOk s.regs → clearFrom s.regs.info (n - z) →
      ∃ rep : Vector Row 32,
        exec .run s = .next (doneWith s { s.regs with cw := c, rows := s.regs.cfgN, report := rep }) ∧
        ∀ w, 1 ≤ w → w ≤ 32 → Regs.rowAt { s.regs with report := rep } w =
          if w ≤ n then detectionRow c n s.regs.gpoly z w
          else { total := 0, det := 0, rate := 0, weight := 0 })

/-- R153: RUN leaves the state that ENCODE followed by ANALYZE leaves. -/
def Obligations.RunEqualsEncodeThenAnalyze : Prop :=
  ∀ s : State, gOk s.regs → cOk s.regs → clearFrom s.regs.info (s.regs.cfgN.toNat - s.regs.gdeg.toNat) →
    ∃ t u, exec .encode s = .next t ∧ exec .analyze t = .next u ∧ exec .run s = .next u

/-- R162: ANALYZE twice leaves what ANALYZE once leaves. -/
def Obligations.AnalyzeIsIdempotent : Prop :=
  ∀ s : State, gOk s.regs → cOk s.regs → clearFrom s.regs.cw s.regs.cfgN.toNat →
    ∃ t, exec .analyze s = .next t ∧ exec .analyze t = .next t

/-! ### All commands -/

/-- R180: NOP completes in every state: DONE = 1, BUSY = 0, and nothing else changes. -/
def Obligations.NopOnlyCompletes : Prop :=
  decode 0x00000000#32 = .ok .nop ∧ ∀ s : State, exec .nop s = .next (doneWith s s.regs)

/-- R46: a command that does not fault writes only its write set, BUSY and DONE; a faulting one, and an illegal
word, only BUSY, FAULT and CAUSE. The Host agent, the turns and the counters of rounds and draws keep their
values: they are the model's own fields (log entries 1, 2 and 4), and that PEND keeps the completed word is the
model's choice too (DESIGN CHOICE, log entry 3); R46 names none of these. -/
def Obligations.CommandsWriteOnlyTheirWriteSet : Prop :=
  (∀ (i : Instr) (s t : State), exec i s = .next t →
    (∃ c, c ≠ Cause.none ∧ t = faultedWith s c) ∨
    (t.regs.status.busy = false ∧ t.regs.status.done = true ∧
      (∀ g, g ≠ .status → writeSet i g = false → t.regs.peek g = s.regs.peek g) ∧
      (i ≠ .check → t.regs.status.errdet = s.regs.status.errdet) ∧
      (i ≠ .enumNext → (∀ w, i ≠ .enumFirst w) → t.regs.status.enumValid = s.regs.status.enumValid) ∧
      t.regs.status.werr = s.regs.status.werr ∧ t.regs.status.fault = s.regs.status.fault ∧
      t.regs.status.cause = s.regs.status.cause ∧ t.regs.pend = s.regs.pend ∧
      t.host = s.host ∧ t.sched = s.sched ∧ t.rounds = s.rounds ∧ t.draws = s.draws)) ∧
  (∀ (s : State) (e : DecodeError), decode s.regs.pend = .error e →
    completePending s = .next (faultedWith s .illegalCmd))

/-- R201: which cause each command can raise, and under which of its conditions. A command raises no other. -/
def Obligations.CausesOfEachCommand : Prop :=
  ∀ (i : Instr) (s : State) (c : Cause), exec i s = .next (faultedWith s c) →
    s.regs.status.fault = false →
    (c = .malformedPoly ∧ ¬ gOk s.regs ∧
      (i = .encode ∨ i = .check ∨ i = .analyze ∨ i = .run ∨ (∃ n, i = .divrem n) ∨ ∃ w, i = .analyzeW w)) ∨
    (c = .badConfig ∧ ¬ cOk s.regs ∧ i ≠ .nop ∧ ∀ n, i = .divrem n → n = 0) ∨
    (c = .badArg ∧ ((∃ n, i = .divrem n ∧ 32 < n) ∨ (∃ w, i = .enumFirst w ∧ s.regs.cfgN.toNat < w) ∨
      ∃ w, i = .analyzeW w ∧ (w = 0 ∨ s.regs.cfgN.toNat < w))) ∨
    (c = .operandRange ∧
      ((∃ n, i = .divrem n ∧ ¬ clearFrom s.regs.divd (if n = 0 then s.regs.cfgN.toNat else n)) ∨
        ((i = .encode ∨ i = .run) ∧ ¬ clearFrom s.regs.info (s.regs.cfgN.toNat - s.regs.gdeg.toNat)) ∨
        (i = .check ∧ ¬ clearFrom s.regs.rx s.regs.cfgN.toNat) ∨
        ((i = .analyze ∨ ∃ w, i = .analyzeW w) ∧ ¬ clearFrom s.regs.cw s.regs.cfgN.toNat))) ∨
    (c = .enumState ∧ i = .enumNext ∧ s.regs.status.enumValid = false)

/-- R210: the state after a fault is the state before the command, except for FAULT, CAUSE and BUSY; so no
register of the command's write set is written, and DONE stays as it was. -/
def Obligations.FaultsArePrecise : Prop :=
  ∀ s t : State, completePending s = .next t → s.regs.status.fault = false →
    t.regs.status.fault = true →
    ∃ c, c ≠ Cause.none ∧ t = faultedWith s c ∧ t.regs.status.busy = false ∧
      t.regs.status.cause = c ∧ t.regs.status.done = s.regs.status.done

/-! ### The host port -/

/-- R181, R182: what a write to each offset does. Every other field keeps its value. -/
def Obligations.HostWriteEffects : Prop :=
  ∀ (r : Regs) (v : Word),
    (v.getLsbD 1 = true → blockReset (r.writeAt 0x000 v)) ∧
    (v.getLsbD 1 = false → r.writeAt 0x000 v = { r with ie := v.getLsbD 0 }) ∧
    r.writeAt 0x004 v =
      { r with status := { r.status with
          done := r.status.done && !v.getLsbD 1, werr := r.status.werr && !v.getLsbD 5 } } ∧
    ((r.status.busy = true ∨ r.status.fault = true) →
      r.writeAt 0x008 v = { r with status := { r.status with werr := true } }) ∧
    (r.status.busy = false → r.status.fault = false →
      r.writeAt 0x008 v = { r with pend := v, status := { r.status with busy := true, done := false } }) ∧
    (r.status.busy = true → ∀ off ∈ droppedOffsets,
      r.writeAt off v = { r with status := { r.status with werr := true } }) ∧
    (r.status.busy = false →
      r.writeAt 0x010 v = { r with gpoly := v } ∧
      r.writeAt 0x014 v = { r with gdeg := v.extractLsb' 0 5 } ∧
      r.writeAt 0x018 v =
        { r with cfgN := v.extractLsb' 0 6, status := { r.status with enumValid := false } } ∧
      r.writeAt 0x020 v = { r with info := v } ∧ r.writeAt 0x024 v = { r with cw := v } ∧
      r.writeAt 0x028 v = { r with rx := v } ∧ r.writeAt 0x02C v = { r with divd := v }) ∧
    (∀ off, off ≠ 0x000 → off ≠ 0x004 → off ∉ droppedOffsets → r.writeAt off v = r)

/-- R48: a write to CMD or to an operand or configuration register while BUSY = 1 keeps every register and sets
WERR, ENUM_VALID included; writes to CTRL and STATUS are honoured; read-only and reserved offsets ignore it. -/
def Obligations.BusyWritesAreDropped : Prop :=
  ∀ (r : Regs) (v : Word), r.status.busy = true →
    (∀ off ∈ droppedOffsets, ∀ g, g ≠ .status → (r.writeAt off v).peek g = r.peek g) ∧
    (∀ off ∈ droppedOffsets, (r.writeAt off v).status = { r.status with werr := true } ∧
      (r.writeAt off v).pend = r.pend) ∧
    (v.getLsbD 1 = false → (r.writeAt 0x000 v).ie = v.getLsbD 0) ∧
    (v.getLsbD 1 = true → blockReset (r.writeAt 0x000 v)) ∧
    (v.getLsbD 5 = true → (r.writeAt 0x004 v).status.werr = false) ∧
    (∀ off, (off ∈ readOnlyOffsets ∨ (0x110 ≤ off ∧ off < 0x310) ∨ reservedOffset off) → r.writeAt off v = r)

/-- R49: reserved offsets, report row 0 among them, read 0 and ignore writes; a write to a read-only register
is ignored, sets no WERR and is no bus error. -/
def Obligations.ReservedAndReadOnlyOffsets : Prop :=
  (∀ (r : Regs) (v fresh : Word) (off : Nat), off % 4 = 0 → reservedOffset off →
    r.readAt fresh off = 0 ∧ r.writeAt off v = r) ∧
  (∀ (s : State) (v : Word) (off : Nat), off % 4 = 0 →
    (off ∈ readOnlyOffsets ∨ (0x110 ≤ off ∧ off < 0x310)) →
    busAccess { addr := Config.cycBase + off, bits := 32, op := .write v } s = .next s)

/-- The window read back: an operand or configuration register written while BUSY = 0 reads as the value
restricted to its bits (10_state.md R34 to R36, R40 to R43), and every other register but STATUS and K_VIEW
reads as before. -/
def Obligations.WindowReadAfterWrite : Prop :=
  ∀ (r : Regs) (v fresh : Word), r.status.busy = false →
    (∀ g ∈ [Reg.gpoly, .info, .cw, .rx, .divd], (r.writeAt g.offset v).readAt fresh g.offset = v) ∧
    (r.writeAt 0x014 v).readAt fresh 0x014 = v &&& 0x1F#32 ∧
    (r.writeAt 0x018 v).readAt fresh 0x018 = v &&& 0x3F#32 ∧
    (∀ g ∈ [Reg.gpoly, .gdeg, .cfgN, .info, .cw, .rx, .divd], ∀ g' : Reg, g'.wellFormed = true → g' ≠ g →
      g' ≠ .status → g' ≠ .kView →
      (r.writeAt g.offset v).readAt fresh g'.offset = r.readAt fresh g'.offset)

/-- R24: after a write of any value with bit 1 clear, CTRL reads `zext_32` of its bit 0; it reads 0 or 1 in
every state. -/
def Obligations.CtrlReadsItsEnableBit : Prop :=
  ∀ (r : Regs) (v fresh : Word),
    (v.getLsbD 1 = false → (r.writeAt 0x000 v).readAt fresh 0x000 = v &&& 1#32) ∧
    (v.getLsbD 1 = true → (r.writeAt 0x000 v).readAt fresh 0x000 = 0) ∧
    (r.readAt fresh 0x000 = 0 ∨ r.readAt fresh 0x000 = 1)

/-- R37: K_VIEW reads N - Z when N > Z and 0 otherwise, in every state; after reset it reads 4. -/
def Obligations.KViewFollowsConfiguration : Prop :=
  (∀ (r : Regs) (fresh : Word),
    (r.gdeg.toNat < r.cfgN.toNat → (r.readAt fresh 0x01C).toNat = r.cfgN.toNat - r.gdeg.toNat) ∧
    (r.cfgN.toNat ≤ r.gdeg.toNat → r.readAt fresh 0x01C = 0)) ∧
  (∀ fresh : Word, State.reset.regs.readAt fresh 0x01C = 4)

/-- R25: the bits of STATUS as a read with BUSY = 0 shows them. -/
def Obligations.StatusReadsItsFields : Prop :=
  ∀ (r : Regs) (fresh : Word), r.status.busy = false →
    (r.readAt fresh 0x004).extractLsb' 8 4 = r.status.cause.code ∧
    (r.readAt fresh 0x004).getLsbD 0 = false ∧ (r.readAt fresh 0x004).getLsbD 1 = r.status.done ∧
    (r.readAt fresh 0x004).getLsbD 2 = r.status.fault ∧ (r.readAt fresh 0x004).getLsbD 3 = r.status.errdet ∧
    (r.readAt fresh 0x004).getLsbD 4 = r.status.enumValid ∧ (r.readAt fresh 0x004).getLsbD 5 = r.status.werr ∧
    (r.readAt fresh 0x004).extractLsb' 6 2 = 0 ∧ (r.readAt fresh 0x004).extractLsb' 12 20 = 0

/-- R65: a read changes no state of the block; two reads with nothing between them answer the same, except
where the pending command's write set makes each a fresh draw. The clauses on `State.draws` are no words of
R65: the counter, unchanged by a read that draws nothing and one more after one that draws, is the model's
form of a fresh draw (DESIGN CHOICE, log entry 4). -/
def Obligations.ReadsHaveNoSideEffects : Prop :=
  ∀ (s : State) (off : Nat),
    (s.hostRead off).regs = s.regs ∧
    (s.regs.drawnAt off = 0 →
      ((s.hostRead off).hostRead off).host.last = (s.hostRead off).host.last ∧
      (s.hostRead off).draws = s.draws) ∧
    (s.regs.drawnAt off ≠ 0 → (s.hostRead off).draws = s.draws + 1)

/-- R47: while BUSY = 1, a read of a word in the pending command's write set is the drawn word, whatever it is;
of STATUS only ERRDET (CHECK) and ENUM_VALID (ENUM_FIRST, ENUM_NEXT) are drawn; every other register reads
its current value. In a state with a coherent STATUS, BUSY reads 1 and DONE, FAULT and CAUSE read 0. -/
def Obligations.BusyReadsAreDraws : Prop :=
  ∀ (r : Regs) (fresh : Word), r.status.busy = true →
    (∀ i g, decode r.pend = .ok i → g.wellFormed = true → g ≠ .status → writeSet i g = true →
      r.readAt fresh g.offset = fresh) ∧
    (∀ g, g.wellFormed = true → g ≠ .status → (∀ i, decode r.pend = .ok i → writeSet i g = false) →
      r.readAt fresh g.offset = r.peek g) ∧
    (∀ j, j < 32 → j ≠ 3 → j ≠ 4 → (r.readAt fresh 0x004).getLsbD j = r.status.toWord.getLsbD j) ∧
    (r.readAt fresh 0x004).getLsbD 3 =
      (if decode r.pend = .ok .check then fresh.getLsbD 3 else r.status.errdet) ∧
    ((decode r.pend = .ok .enumNext ∨ ∃ w, decode r.pend = .ok (.enumFirst w)) →
      (r.readAt fresh 0x004).getLsbD 4 = fresh.getLsbD 4) ∧
    (decode r.pend ≠ .ok .enumNext → (∀ w, decode r.pend ≠ .ok (.enumFirst w)) →
      (r.readAt fresh 0x004).getLsbD 4 = r.status.enumValid) ∧
    (r.status.coherent = true →
      (r.readAt fresh 0x004).extractLsb' 0 3 = 1 ∧ (r.readAt fresh 0x004).extractLsb' 8 4 = 0)

/-- R61, R62: inside the window exactly the aligned 32-bit accesses are accepted, reads and writes alike, and
every other form is a bus error; an address outside the window does not reach the block (R60; refused,
93_implementation_defined.md I18). -/
def Obligations.OnlyAlignedWordAccessesAreAccepted : Prop :=
  ∀ (s : State) (op : BusOp) (off bits : Nat), off < 0x400 →
    (bits = 32 → off % 4 = 0 →
      busAccess { addr := Config.cycBase + off, bits := bits, op := op } s = .next (s.accessAt off op)) ∧
    ((bits ≠ 32 ∨ off % 4 ≠ 0) →
      busAccess { addr := Config.cycBase + off, bits := bits, op := op } s = .fault .busError) ∧
    (∀ a, (a < Config.cycBase ∨ Config.cycBase + 0x400 ≤ a) →
      busAccess { addr := a, bits := bits, op := op } s = .fault .outsideWindow)

/-- R215: `irq` is IE and (DONE or FAULT); with IE = 1 it is asserted after every completion, successful,
faulting or illegal; and a write of CTRL that sets IE while DONE or FAULT is 1 asserts it. -/
def Obligations.InterruptSignalsCompletion : Prop :=
  (∀ r : Regs, r.irq = true ↔ r.ie = true ∧ (r.status.done = true ∨ r.status.fault = true)) ∧
  (∀ s t : State, s.regs.ie = true → completePending s = .next t → t.regs.irq = true) ∧
  (∀ (r : Regs) (v : Word), v.getLsbD 0 = true → v.getLsbD 1 = false →
    (r.status.done = true ∨ r.status.fault = true) → (r.writeAt 0x000 v).irq = true)

/-- R216: a completion interrupt is cleared by writing 1 to DONE or by the next issue; a fault interrupt only by
reset, or masked by IE = 0; WERR raises none. -/
def Obligations.InterruptClearing : Prop :=
  ∀ (r : Regs) (v : Word),
    (r.status.fault = false → v.getLsbD 1 = true → (r.writeAt 0x004 v).irq = false) ∧
    (r.status.fault = false → r.status.busy = false → (r.writeAt 0x008 v).irq = false) ∧
    (r.status.fault = true → (r.writeAt 0x004 v).irq = r.ie ∧ (r.writeAt 0x008 v).irq = r.ie) ∧
    (v.getLsbD 0 = false → (r.writeAt 0x000 v).irq = false) ∧
    (v.getLsbD 1 = true → (r.writeAt 0x000 v).irq = false) ∧
    (r.status.busy = true → ∀ off ∈ droppedOffsets, (r.writeAt off v).irq = r.irq)

/-- R90: the loop of `wait`. Its read of STATUS answers BUSY in bit 0, and its branch goes back to the label
exactly while that bit is 1; so it is left only with BUSY = 0 read. -/
def Obligations.WaitLoopsWhileBusy : Prop :=
  ∀ (s : State) (w : Nat),
    (∃ t, runStmt (asmRd .status) s = .next t ∧ t.regs = s.regs ∧ t.host.pos = s.host.pos + 1 ∧
      t.host.last.getLsbD 0 = s.regs.status.busy) ∧
    (s.host.last.getLsbD 0 = false →
      runStmt (.branch (condSet 1) w) s = .next { s with host := { s.host with pos := s.host.pos + 1 } }) ∧
    (s.host.last.getLsbD 0 = true → ∀ p, labelPos s.host.prog w = some p →
      runStmt (.branch (condSet 1) w) s = .next { s with host := { s.host with pos := p } })

/-! ### Reset, steps and whole-machine rules -/

/-- R51: the state after reset. (PEND and the fields of the Host agent and of the interleaving are the model's
choice, log entries 1 to 4 and 10, and are not named.) -/
def Obligations.ResetValues : Prop :=
  blockReset State.reset.regs ∧ State.reset.regs.status.toWord = 0

/-- R241: the hardware reset, at any time, and a write of CTRL with bit 1 set, in any state, put the block to
its reset values in one step. That the Host agent and the turns stay as they are under the hardware reset is
the model's choice (DEDUCED, log entry 13), no words of R241; so is the turn as a list entry (DESIGN CHOICE,
log entry 2). -/
def Obligations.BothResetsResetTheBlock : Prop :=
  (∀ (s : State) (rest : List Turn), s.sched = .rst :: rest →
    ∃ t, step s = .next t ∧ blockReset t.regs ∧ t.host = s.host ∧ t.sched = rest) ∧
  (∀ (s : State) (v : Word), v.getLsbD 1 = true →
    ∃ t, busAccess { addr := Config.cycBase, bits := 32, op := .write v } s = .next t ∧ blockReset t.regs)

/-- When the Core has the turn and the pending word decodes to a command, the step is that command's completion
in the state with the turn taken, and what taking a turn changes. That turns are a list with free rounds after
it is the model's form of the free order of steps (DESIGN CHOICE, log entry 2); and that a command placed by
`withFetchWord`, in any state, FAULT = 1 and BUSY = 1 included, is run by the very next step is the model's
choice (DESIGN CHOICE, log entry 9), no words of R186 or R12. -/
def Obligations.StepRunsDecodedCommand : Prop :=
  (∀ (s u : State) (i : Instr), takeTurn s = (.core, u) → s.regs.status.busy = true →
    decode s.regs.pend = .ok i →
      step s = exec i u ∧ u = { s with sched := u.sched, rounds := u.rounds } ∧
      (∀ rest, s.sched = .core :: rest → u = { s with sched := rest }) ∧
      (s.sched = [] → u = { s with sched := Config.freeTurns s.rounds, rounds := s.rounds + 1 })) ∧
  (∀ (s : State) (i : Instr), decode (encode i) = .ok i →
    step (s.withFetchWord 32 (encode i).toNat) =
      exec i { s with regs := { s.regs with
        pend := encode i, status := { s.regs.status with busy := true, done := false } } })

/-- The invariants hold after reset. -/
def Obligations.ResetMeetsTheInvariants : Prop :=
  State.reset.regs.status.coherent = true ∧ State.reset.regs.enumeratorInRange = true ∧
    State.reset.regs.reportInRange

/-- R27, R32, R217, from every state: each step keeps STATUS coherent: DONE and FAULT 0 during BUSY, never both
1, CAUSE 0 exactly while FAULT = 0. -/
def Obligations.StepKeepsStatusCoherent : Prop :=
  ∀ s t : State, s.regs.status.coherent = true → step s = .next t → t.regs.status.coherent = true

/-- R143, R44: each step keeps a live enumeration inside a legal codeword length. -/
def Obligations.StepKeepsEnumeratorInRange : Prop :=
  ∀ s t : State, s.regs.enumeratorInRange = true → step s = .next t → t.regs.enumeratorInRange = true

/-- R38, R39: each step keeps every report row in its ranges, and ROWS at most 32. -/
def Obligations.StepKeepsReportInRange : Prop :=
  ∀ s t : State, s.regs.reportInRange → step s = .next t → t.regs.reportInRange

/-- R211, R212: from a coherent STATUS with FAULT = 1, a step keeps FAULT and the first CAUSE and runs no
command, unless it is a reset, which resets all other state too. -/
def Obligations.FaultLastsUntilReset : Prop :=
  ∀ s t : State, s.regs.status.coherent = true → s.regs.status.fault = true → step s = .next t →
    (t.regs.status.fault = true ∧ t.regs.status.cause = s.regs.status.cause ∧ t.regs.status.busy = false) ∨
    blockReset t.regs

/-- R186, R248: REM, SYND, EVEC, ROWS, the report and ERRDET change only in a completion step of the Core with
BUSY = 1, or by a reset; a host access never changes them otherwise. -/
def Obligations.ResultsChangeOnlyAtCompletion : Prop :=
  ∀ s t : State, step s = .next t →
    ((takeTurn s).1 = .core ∧ s.regs.status.busy = true) ∨ blockReset t.regs ∨
    (t.regs.rem = s.regs.rem ∧ t.regs.synd = s.regs.synd ∧ t.regs.evec = s.regs.evec ∧
      t.regs.rows = s.regs.rows ∧ t.regs.report = s.regs.report ∧
      t.regs.status.errdet = s.regs.status.errdet)

/-- R48, R73: while a command stays pending, its word and every register a command reads keep their values. -/
def Obligations.OperandsHoldWhilePending : Prop :=
  ∀ s t : State, step s = .next t → s.regs.status.busy = true → t.regs.status.busy = true →
    t.regs.pend = s.regs.pend ∧ t.regs.gpoly = s.regs.gpoly ∧ t.regs.gdeg = s.regs.gdeg ∧
    t.regs.cfgN = s.regs.cfgN ∧ t.regs.info = s.regs.info ∧ t.regs.cw = s.regs.cw ∧
    t.regs.rx = s.regs.rx ∧ t.regs.divd = s.regs.divd ∧ t.regs.evec = s.regs.evec ∧
    t.regs.status.enumValid = s.regs.status.enumValid

/-- R255, in the model's form (log entry 2): from a state with BUSY = 1, whatever turns are listed and whatever
the Host does, BUSY is 0 (completed, or reset) after at most one step more than the turns listed in the round, unless a
fault of the Host's step has stopped the run before: a refused access, or a branch to an undefined label (log
entry 7). The rounds that follow are free. -/
def Obligations.PendingCommandCompletes : Prop :=
  ∀ s : State, s.regs.status.busy = true →
    ∃ k, k ≤ s.sched.length + 1 ∧
      ((∃ t, Sys2Proof.core.run k s = .next t ∧ t.regs.status.busy = false) ∨
        ∃ f, Sys2Proof.core.run k s = .fault f)
end

