-- ==== Sys2Proof/Laws/State.lean ====
section
/-! SUPPORT. One lemma per field per update, each true by definition, so that no proof unfolds an update: the
updates of STATUS (Flags.lean), of the registers (Ops.lean, Analyzer.lean, HostPort.lean) and of the state. -/

namespace Sys2Proof.Machine

@[simp] theorem Status.completed_busy (f : Status) : (f.completed).busy = false := rfl
@[simp] theorem Status.completed_done (f : Status) : (f.completed).done = true := rfl
@[simp] theorem Status.completed_fault (f : Status) : (f.completed).fault = f.fault := rfl
@[simp] theorem Status.completed_errdet (f : Status) : (f.completed).errdet = f.errdet := rfl
@[simp] theorem Status.completed_enumValid (f : Status) : (f.completed).enumValid = f.enumValid := rfl
@[simp] theorem Status.completed_werr (f : Status) : (f.completed).werr = f.werr := rfl
@[simp] theorem Status.completed_cause (f : Status) : (f.completed).cause = f.cause := rfl

@[simp] theorem Status.faulted_busy (f : Status) (c : Cause) : (f.faulted c).busy = false := rfl
@[simp] theorem Status.faulted_done (f : Status) (c : Cause) : (f.faulted c).done = f.done := rfl
@[simp] theorem Status.faulted_fault (f : Status) (c : Cause) : (f.faulted c).fault = true := rfl
@[simp] theorem Status.faulted_errdet (f : Status) (c : Cause) : (f.faulted c).errdet = f.errdet := rfl
@[simp] theorem Status.faulted_enumValid (f : Status) (c : Cause) : (f.faulted c).enumValid = f.enumValid := rfl
@[simp] theorem Status.faulted_werr (f : Status) (c : Cause) : (f.faulted c).werr = f.werr := rfl
@[simp] theorem Status.faulted_cause (f : Status) (c : Cause) : (f.faulted c).cause = c := rfl

@[simp] theorem Status.issued_busy (f : Status) : (f.issued).busy = true := rfl
@[simp] theorem Status.issued_done (f : Status) : (f.issued).done = false := rfl
@[simp] theorem Status.issued_fault (f : Status) : (f.issued).fault = f.fault := rfl
@[simp] theorem Status.issued_errdet (f : Status) : (f.issued).errdet = f.errdet := rfl
@[simp] theorem Status.issued_enumValid (f : Status) : (f.issued).enumValid = f.enumValid := rfl
@[simp] theorem Status.issued_werr (f : Status) : (f.issued).werr = f.werr := rfl
@[simp] theorem Status.issued_cause (f : Status) : (f.issued).cause = f.cause := rfl

@[simp] theorem Status.dropped_busy (f : Status) : (f.dropped).busy = f.busy := rfl
@[simp] theorem Status.dropped_done (f : Status) : (f.dropped).done = f.done := rfl
@[simp] theorem Status.dropped_fault (f : Status) : (f.dropped).fault = f.fault := rfl
@[simp] theorem Status.dropped_errdet (f : Status) : (f.dropped).errdet = f.errdet := rfl
@[simp] theorem Status.dropped_enumValid (f : Status) : (f.dropped).enumValid = f.enumValid := rfl
@[simp] theorem Status.dropped_werr (f : Status) : (f.dropped).werr = true := rfl
@[simp] theorem Status.dropped_cause (f : Status) : (f.dropped).cause = f.cause := rfl

@[simp] theorem Status.writeOneToClear_busy (f : Status) (v : Word) : (f.writeOneToClear v).busy = f.busy := rfl
@[simp] theorem Status.writeOneToClear_done (f : Status) (v : Word) : (f.writeOneToClear v).done = if v.getLsbD 1 then false else f.done := rfl
@[simp] theorem Status.writeOneToClear_fault (f : Status) (v : Word) : (f.writeOneToClear v).fault = f.fault := rfl
@[simp] theorem Status.writeOneToClear_errdet (f : Status) (v : Word) : (f.writeOneToClear v).errdet = f.errdet := rfl
@[simp] theorem Status.writeOneToClear_enumValid (f : Status) (v : Word) : (f.writeOneToClear v).enumValid = f.enumValid := rfl
@[simp] theorem Status.writeOneToClear_werr (f : Status) (v : Word) : (f.writeOneToClear v).werr = if v.getLsbD 5 then false else f.werr := rfl
@[simp] theorem Status.writeOneToClear_cause (f : Status) (v : Word) : (f.writeOneToClear v).cause = f.cause := rfl

@[simp] theorem Regs.latch_ie (r : Regs) (v : Word) : (r.latch v).ie = r.ie := rfl
@[simp] theorem Regs.latch_status (r : Regs) (v : Word) : (r.latch v).status = r.status.issued := rfl
@[simp] theorem Regs.latch_pend (r : Regs) (v : Word) : (r.latch v).pend = v := rfl
@[simp] theorem Regs.latch_gpoly (r : Regs) (v : Word) : (r.latch v).gpoly = r.gpoly := rfl
@[simp] theorem Regs.latch_gdeg (r : Regs) (v : Word) : (r.latch v).gdeg = r.gdeg := rfl
@[simp] theorem Regs.latch_cfgN (r : Regs) (v : Word) : (r.latch v).cfgN = r.cfgN := rfl
@[simp] theorem Regs.latch_info (r : Regs) (v : Word) : (r.latch v).info = r.info := rfl
@[simp] theorem Regs.latch_cw (r : Regs) (v : Word) : (r.latch v).cw = r.cw := rfl
@[simp] theorem Regs.latch_rx (r : Regs) (v : Word) : (r.latch v).rx = r.rx := rfl
@[simp] theorem Regs.latch_divd (r : Regs) (v : Word) : (r.latch v).divd = r.divd := rfl
@[simp] theorem Regs.latch_rem (r : Regs) (v : Word) : (r.latch v).rem = r.rem := rfl
@[simp] theorem Regs.latch_synd (r : Regs) (v : Word) : (r.latch v).synd = r.synd := rfl
@[simp] theorem Regs.latch_evec (r : Regs) (v : Word) : (r.latch v).evec = r.evec := rfl
@[simp] theorem Regs.latch_rows (r : Regs) (v : Word) : (r.latch v).rows = r.rows := rfl
@[simp] theorem Regs.latch_report (r : Regs) (v : Word) : (r.latch v).report = r.report := rfl

@[simp] theorem Regs.dropWrite_ie (r : Regs) : (r.dropWrite).ie = r.ie := rfl
@[simp] theorem Regs.dropWrite_status (r : Regs) : (r.dropWrite).status = r.status.dropped := rfl
@[simp] theorem Regs.dropWrite_pend (r : Regs) : (r.dropWrite).pend = r.pend := rfl
@[simp] theorem Regs.dropWrite_gpoly (r : Regs) : (r.dropWrite).gpoly = r.gpoly := rfl
@[simp] theorem Regs.dropWrite_gdeg (r : Regs) : (r.dropWrite).gdeg = r.gdeg := rfl
@[simp] theorem Regs.dropWrite_cfgN (r : Regs) : (r.dropWrite).cfgN = r.cfgN := rfl
@[simp] theorem Regs.dropWrite_info (r : Regs) : (r.dropWrite).info = r.info := rfl
@[simp] theorem Regs.dropWrite_cw (r : Regs) : (r.dropWrite).cw = r.cw := rfl
@[simp] theorem Regs.dropWrite_rx (r : Regs) : (r.dropWrite).rx = r.rx := rfl
@[simp] theorem Regs.dropWrite_divd (r : Regs) : (r.dropWrite).divd = r.divd := rfl
@[simp] theorem Regs.dropWrite_rem (r : Regs) : (r.dropWrite).rem = r.rem := rfl
@[simp] theorem Regs.dropWrite_synd (r : Regs) : (r.dropWrite).synd = r.synd := rfl
@[simp] theorem Regs.dropWrite_evec (r : Regs) : (r.dropWrite).evec = r.evec := rfl
@[simp] theorem Regs.dropWrite_rows (r : Regs) : (r.dropWrite).rows = r.rows := rfl
@[simp] theorem Regs.dropWrite_report (r : Regs) : (r.dropWrite).report = r.report := rfl

@[simp] theorem Regs.complete_ie (r : Regs) : (r.complete).ie = r.ie := rfl
@[simp] theorem Regs.complete_status (r : Regs) : (r.complete).status = r.status.completed := rfl
@[simp] theorem Regs.complete_pend (r : Regs) : (r.complete).pend = r.pend := rfl
@[simp] theorem Regs.complete_gpoly (r : Regs) : (r.complete).gpoly = r.gpoly := rfl
@[simp] theorem Regs.complete_gdeg (r : Regs) : (r.complete).gdeg = r.gdeg := rfl
@[simp] theorem Regs.complete_cfgN (r : Regs) : (r.complete).cfgN = r.cfgN := rfl
@[simp] theorem Regs.complete_info (r : Regs) : (r.complete).info = r.info := rfl
@[simp] theorem Regs.complete_cw (r : Regs) : (r.complete).cw = r.cw := rfl
@[simp] theorem Regs.complete_rx (r : Regs) : (r.complete).rx = r.rx := rfl
@[simp] theorem Regs.complete_divd (r : Regs) : (r.complete).divd = r.divd := rfl
@[simp] theorem Regs.complete_rem (r : Regs) : (r.complete).rem = r.rem := rfl
@[simp] theorem Regs.complete_synd (r : Regs) : (r.complete).synd = r.synd := rfl
@[simp] theorem Regs.complete_evec (r : Regs) : (r.complete).evec = r.evec := rfl
@[simp] theorem Regs.complete_rows (r : Regs) : (r.complete).rows = r.rows := rfl
@[simp] theorem Regs.complete_report (r : Regs) : (r.complete).report = r.report := rfl

@[simp] theorem Regs.takeFault_ie (r : Regs) (c : Cause) : (r.takeFault c).ie = r.ie := rfl
@[simp] theorem Regs.takeFault_status (r : Regs) (c : Cause) : (r.takeFault c).status = r.status.faulted c := rfl
@[simp] theorem Regs.takeFault_pend (r : Regs) (c : Cause) : (r.takeFault c).pend = r.pend := rfl
@[simp] theorem Regs.takeFault_gpoly (r : Regs) (c : Cause) : (r.takeFault c).gpoly = r.gpoly := rfl
@[simp] theorem Regs.takeFault_gdeg (r : Regs) (c : Cause) : (r.takeFault c).gdeg = r.gdeg := rfl
@[simp] theorem Regs.takeFault_cfgN (r : Regs) (c : Cause) : (r.takeFault c).cfgN = r.cfgN := rfl
@[simp] theorem Regs.takeFault_info (r : Regs) (c : Cause) : (r.takeFault c).info = r.info := rfl
@[simp] theorem Regs.takeFault_cw (r : Regs) (c : Cause) : (r.takeFault c).cw = r.cw := rfl
@[simp] theorem Regs.takeFault_rx (r : Regs) (c : Cause) : (r.takeFault c).rx = r.rx := rfl
@[simp] theorem Regs.takeFault_divd (r : Regs) (c : Cause) : (r.takeFault c).divd = r.divd := rfl
@[simp] theorem Regs.takeFault_rem (r : Regs) (c : Cause) : (r.takeFault c).rem = r.rem := rfl
@[simp] theorem Regs.takeFault_synd (r : Regs) (c : Cause) : (r.takeFault c).synd = r.synd := rfl
@[simp] theorem Regs.takeFault_evec (r : Regs) (c : Cause) : (r.takeFault c).evec = r.evec := rfl
@[simp] theorem Regs.takeFault_rows (r : Regs) (c : Cause) : (r.takeFault c).rows = r.rows := rfl
@[simp] theorem Regs.takeFault_report (r : Regs) (c : Cause) : (r.takeFault c).report = r.report := rfl

@[simp] theorem Regs.writeCfgN_ie (r : Regs) (v : Word) : (r.writeCfgN v).ie = r.ie := rfl
@[simp] theorem Regs.writeCfgN_status (r : Regs) (v : Word) : (r.writeCfgN v).status = { r.status with enumValid := false } := rfl
@[simp] theorem Regs.writeCfgN_pend (r : Regs) (v : Word) : (r.writeCfgN v).pend = r.pend := rfl
@[simp] theorem Regs.writeCfgN_gpoly (r : Regs) (v : Word) : (r.writeCfgN v).gpoly = r.gpoly := rfl
@[simp] theorem Regs.writeCfgN_gdeg (r : Regs) (v : Word) : (r.writeCfgN v).gdeg = r.gdeg := rfl
@[simp] theorem Regs.writeCfgN_cfgN (r : Regs) (v : Word) : (r.writeCfgN v).cfgN = v.setWidth 6 := rfl
@[simp] theorem Regs.writeCfgN_info (r : Regs) (v : Word) : (r.writeCfgN v).info = r.info := rfl
@[simp] theorem Regs.writeCfgN_cw (r : Regs) (v : Word) : (r.writeCfgN v).cw = r.cw := rfl
@[simp] theorem Regs.writeCfgN_rx (r : Regs) (v : Word) : (r.writeCfgN v).rx = r.rx := rfl
@[simp] theorem Regs.writeCfgN_divd (r : Regs) (v : Word) : (r.writeCfgN v).divd = r.divd := rfl
@[simp] theorem Regs.writeCfgN_rem (r : Regs) (v : Word) : (r.writeCfgN v).rem = r.rem := rfl
@[simp] theorem Regs.writeCfgN_synd (r : Regs) (v : Word) : (r.writeCfgN v).synd = r.synd := rfl
@[simp] theorem Regs.writeCfgN_evec (r : Regs) (v : Word) : (r.writeCfgN v).evec = r.evec := rfl
@[simp] theorem Regs.writeCfgN_rows (r : Regs) (v : Word) : (r.writeCfgN v).rows = r.rows := rfl
@[simp] theorem Regs.writeCfgN_report (r : Regs) (v : Word) : (r.writeCfgN v).report = r.report := rfl

@[simp] theorem Regs.writeReport_ie (r : Regs) (cw : Word) : (r.writeReport cw).ie = r.ie := rfl
@[simp] theorem Regs.writeReport_status (r : Regs) (cw : Word) : (r.writeReport cw).status = r.status := rfl
@[simp] theorem Regs.writeReport_pend (r : Regs) (cw : Word) : (r.writeReport cw).pend = r.pend := rfl
@[simp] theorem Regs.writeReport_gpoly (r : Regs) (cw : Word) : (r.writeReport cw).gpoly = r.gpoly := rfl
@[simp] theorem Regs.writeReport_gdeg (r : Regs) (cw : Word) : (r.writeReport cw).gdeg = r.gdeg := rfl
@[simp] theorem Regs.writeReport_cfgN (r : Regs) (cw : Word) : (r.writeReport cw).cfgN = r.cfgN := rfl
@[simp] theorem Regs.writeReport_info (r : Regs) (cw : Word) : (r.writeReport cw).info = r.info := rfl
@[simp] theorem Regs.writeReport_cw (r : Regs) (cw : Word) : (r.writeReport cw).cw = r.cw := rfl
@[simp] theorem Regs.writeReport_rx (r : Regs) (cw : Word) : (r.writeReport cw).rx = r.rx := rfl
@[simp] theorem Regs.writeReport_divd (r : Regs) (cw : Word) : (r.writeReport cw).divd = r.divd := rfl
@[simp] theorem Regs.writeReport_rem (r : Regs) (cw : Word) : (r.writeReport cw).rem = r.rem := rfl
@[simp] theorem Regs.writeReport_synd (r : Regs) (cw : Word) : (r.writeReport cw).synd = r.synd := rfl
@[simp] theorem Regs.writeReport_evec (r : Regs) (cw : Word) : (r.writeReport cw).evec = r.evec := rfl
@[simp] theorem Regs.writeReport_rows (r : Regs) (cw : Word) : (r.writeReport cw).rows = BitVec.ofNat 6 r.codeLength := rfl
@[simp] theorem Regs.writeReport_report (r : Regs) (cw : Word) : (r.writeReport cw).report = fullReport cw r.codeLength r.gpoly r.degree := rfl

@[simp] theorem Regs.encodeThenReport_ie (r : Regs) : (r.encodeThenReport).ie = r.ie := rfl
@[simp] theorem Regs.encodeThenReport_status (r : Regs) : (r.encodeThenReport).status = r.status := rfl
@[simp] theorem Regs.encodeThenReport_pend (r : Regs) : (r.encodeThenReport).pend = r.pend := rfl
@[simp] theorem Regs.encodeThenReport_gpoly (r : Regs) : (r.encodeThenReport).gpoly = r.gpoly := rfl
@[simp] theorem Regs.encodeThenReport_gdeg (r : Regs) : (r.encodeThenReport).gdeg = r.gdeg := rfl
@[simp] theorem Regs.encodeThenReport_cfgN (r : Regs) : (r.encodeThenReport).cfgN = r.cfgN := rfl
@[simp] theorem Regs.encodeThenReport_info (r : Regs) : (r.encodeThenReport).info = r.info := rfl
@[simp] theorem Regs.encodeThenReport_cw (r : Regs) : (r.encodeThenReport).cw = encodeInfo r.info r.infoLength r.gpoly r.degree := rfl
@[simp] theorem Regs.encodeThenReport_rx (r : Regs) : (r.encodeThenReport).rx = r.rx := rfl
@[simp] theorem Regs.encodeThenReport_divd (r : Regs) : (r.encodeThenReport).divd = r.divd := rfl
@[simp] theorem Regs.encodeThenReport_rem (r : Regs) : (r.encodeThenReport).rem = r.rem := rfl
@[simp] theorem Regs.encodeThenReport_synd (r : Regs) : (r.encodeThenReport).synd = r.synd := rfl
@[simp] theorem Regs.encodeThenReport_evec (r : Regs) : (r.encodeThenReport).evec = r.evec := rfl
@[simp] theorem Regs.encodeThenReport_rows (r : Regs) : (r.encodeThenReport).rows = BitVec.ofNat 6 r.codeLength := rfl
@[simp] theorem Regs.encodeThenReport_report (r : Regs) : (r.encodeThenReport).report = fullReport (encodeInfo r.info r.infoLength r.gpoly r.degree) r.codeLength r.gpoly r.degree := rfl

@[simp] theorem Regs.setRow_ie (r : Regs) (w : Nat) (row : Row) : (r.setRow w row).ie = r.ie := by
  unfold Regs.setRow; split <;> rfl
@[simp] theorem Regs.setRow_status (r : Regs) (w : Nat) (row : Row) : (r.setRow w row).status = r.status := by
  unfold Regs.setRow; split <;> rfl
@[simp] theorem Regs.setRow_pend (r : Regs) (w : Nat) (row : Row) : (r.setRow w row).pend = r.pend := by
  unfold Regs.setRow; split <;> rfl
@[simp] theorem Regs.setRow_gpoly (r : Regs) (w : Nat) (row : Row) : (r.setRow w row).gpoly = r.gpoly := by
  unfold Regs.setRow; split <;> rfl
@[simp] theorem Regs.setRow_gdeg (r : Regs) (w : Nat) (row : Row) : (r.setRow w row).gdeg = r.gdeg := by
  unfold Regs.setRow; split <;> rfl
@[simp] theorem Regs.setRow_cfgN (r : Regs) (w : Nat) (row : Row) : (r.setRow w row).cfgN = r.cfgN := by
  unfold Regs.setRow; split <;> rfl
@[simp] theorem Regs.setRow_info (r : Regs) (w : Nat) (row : Row) : (r.setRow w row).info = r.info := by
  unfold Regs.setRow; split <;> rfl
@[simp] theorem Regs.setRow_cw (r : Regs) (w : Nat) (row : Row) : (r.setRow w row).cw = r.cw := by
  unfold Regs.setRow; split <;> rfl
@[simp] theorem Regs.setRow_rx (r : Regs) (w : Nat) (row : Row) : (r.setRow w row).rx = r.rx := by
  unfold Regs.setRow; split <;> rfl
@[simp] theorem Regs.setRow_divd (r : Regs) (w : Nat) (row : Row) : (r.setRow w row).divd = r.divd := by
  unfold Regs.setRow; split <;> rfl
@[simp] theorem Regs.setRow_rem (r : Regs) (w : Nat) (row : Row) : (r.setRow w row).rem = r.rem := by
  unfold Regs.setRow; split <;> rfl
@[simp] theorem Regs.setRow_synd (r : Regs) (w : Nat) (row : Row) : (r.setRow w row).synd = r.synd := by
  unfold Regs.setRow; split <;> rfl
@[simp] theorem Regs.setRow_evec (r : Regs) (w : Nat) (row : Row) : (r.setRow w row).evec = r.evec := by
  unfold Regs.setRow; split <;> rfl
@[simp] theorem Regs.setRow_rows (r : Regs) (w : Nat) (row : Row) : (r.setRow w row).rows = r.rows := by
  unfold Regs.setRow; split <;> rfl

@[simp] theorem State.withRegs_regs (s : State) (r : Regs) : (s.withRegs r).regs = r := rfl
@[simp] theorem State.withRegs_host (s : State) (r : Regs) : (s.withRegs r).host = s.host := rfl
@[simp] theorem State.withRegs_sched (s : State) (r : Regs) : (s.withRegs r).sched = s.sched := rfl
@[simp] theorem State.withRegs_draws (s : State) (r : Regs) : (s.withRegs r).draws = s.draws := rfl
@[simp] theorem State.withRegs_rounds (s : State) (r : Regs) : (s.withRegs r).rounds = s.rounds := rfl

@[simp] theorem State.takeFault_regs (s : State) (c : Cause) : (s.takeFault c).regs = s.regs.takeFault c := rfl
@[simp] theorem State.takeFault_host (s : State) (c : Cause) : (s.takeFault c).host = s.host := rfl
@[simp] theorem State.takeFault_sched (s : State) (c : Cause) : (s.takeFault c).sched = s.sched := rfl
@[simp] theorem State.takeFault_draws (s : State) (c : Cause) : (s.takeFault c).draws = s.draws := rfl
@[simp] theorem State.takeFault_rounds (s : State) (c : Cause) : (s.takeFault c).rounds = s.rounds := rfl

@[simp] theorem State.resetBlock_regs (s : State) : (s.resetBlock).regs = Regs.reset := rfl
@[simp] theorem State.resetBlock_host (s : State) : (s.resetBlock).host = s.host := rfl
@[simp] theorem State.resetBlock_sched (s : State) : (s.resetBlock).sched = s.sched := rfl
@[simp] theorem State.resetBlock_draws (s : State) : (s.resetBlock).draws = s.draws := rfl
@[simp] theorem State.resetBlock_rounds (s : State) : (s.resetBlock).rounds = s.rounds := rfl

@[simp] theorem State.hostAt_regs (s : State) (p : Nat) : (s.hostAt p).regs = s.regs := rfl
@[simp] theorem State.hostAt_host (s : State) (p : Nat) : (s.hostAt p).host = ⟨s.host.prog, p, s.host.last⟩ := rfl
@[simp] theorem State.hostAt_sched (s : State) (p : Nat) : (s.hostAt p).sched = s.sched := rfl
@[simp] theorem State.hostAt_draws (s : State) (p : Nat) : (s.hostAt p).draws = s.draws := rfl
@[simp] theorem State.hostAt_rounds (s : State) (p : Nat) : (s.hostAt p).rounds = s.rounds := rfl

@[simp] theorem State.hostWrite_regs (s : State) (off : Nat) (v : Word) : (s.hostWrite off v).regs = s.regs.writeAt off v := rfl
@[simp] theorem State.hostWrite_host (s : State) (off : Nat) (v : Word) : (s.hostWrite off v).host = s.host := rfl
@[simp] theorem State.hostWrite_sched (s : State) (off : Nat) (v : Word) : (s.hostWrite off v).sched = s.sched := rfl
@[simp] theorem State.hostWrite_draws (s : State) (off : Nat) (v : Word) : (s.hostWrite off v).draws = s.draws := rfl
@[simp] theorem State.hostWrite_rounds (s : State) (off : Nat) (v : Word) : (s.hostWrite off v).rounds = s.rounds := rfl

@[simp] theorem State.hostRead_regs (s : State) (off : Nat) : (s.hostRead off).regs = s.regs := rfl
@[simp] theorem State.hostRead_host (s : State) (off : Nat) : (s.hostRead off).host = ⟨s.host.prog, s.host.pos, s.regs.readAt (Config.freeWord s.draws) off⟩ := rfl
@[simp] theorem State.hostRead_sched (s : State) (off : Nat) : (s.hostRead off).sched = s.sched := rfl
@[simp] theorem State.hostRead_draws (s : State) (off : Nat) : (s.hostRead off).draws = s.countDraw off := rfl
@[simp] theorem State.hostRead_rounds (s : State) (off : Nat) : (s.hostRead off).rounds = s.rounds := rfl

@[simp] theorem State.issuedNext_regs (s : State) (v : Word) : (s.issuedNext v).regs = s.regs.latch v := rfl
@[simp] theorem State.issuedNext_host (s : State) (v : Word) : (s.issuedNext v).host = s.host := rfl
@[simp] theorem State.issuedNext_sched (s : State) (v : Word) : (s.issuedNext v).sched = .core :: s.sched := rfl
@[simp] theorem State.issuedNext_draws (s : State) (v : Word) : (s.issuedNext v).draws = s.draws := rfl
@[simp] theorem State.issuedNext_rounds (s : State) (v : Word) : (s.issuedNext v).rounds = s.rounds := rfl

end Sys2Proof.Machine
end

