-- ==== Sys2Proof/Laws/Ops.lean ====
section
/-! SUPPORT. What each shared operation of Ops.lean and Operands.lean can do, said once: the checks of a
command, the legality predicates read bit by bit, and the report rows. -/

namespace Sys2Proof.Machine

/-! ### Legality predicates, bit by bit -/

theorem noBitFrom_iff (v : Word) (n : Nat) :
    noBitFrom v n = true ↔ ∀ j, n ≤ j → v.getLsbD j = false := by
  unfold noBitFrom
  rw [beq_iff_eq]
  constructor
  · intro h j hj
    have := congrArg (fun x => x.getLsbD (j - n)) h
    simpa [BitVec.getLsbD_ushiftRight, Nat.add_sub_cancel' hj] using this
  · intro h
    apply BitVec.eq_of_getLsbD_eq
    intro i _
    simp [BitVec.getLsbD_ushiftRight, h (n + i) (by omega)]

theorem noBitFrom_of_width_le (v : Word) {n : Nat} (h : 32 ≤ n) : noBitFrom v n = true := by
  rw [noBitFrom_iff]
  intro j hj
  exact BitVec.getLsbD_of_ge v j (by omega)

theorem configOk_iff (r : Regs) :
    r.configOk = true ↔ 1 ≤ r.codeLength ∧ r.codeLength ≤ 32 ∧ r.degree < r.codeLength := by
  simp only [Regs.configOk, Bool.and_eq_true, decide_eq_true_eq, and_assoc]
  rfl

theorem generatorOk_iff (r : Regs) :
    r.generatorOk = true ↔
      r.gpoly.getLsbD r.degree = true ∧ ∀ j, r.degree < j → r.gpoly.getLsbD j = false := by
  simp only [Regs.generatorOk, Bool.and_eq_true, noBitFrom_iff, Nat.succ_le_iff]

/-! ### The checks of a command -/

@[simp] theorem firstFailure_nil : firstFailure [] = Option.none := rfl

@[simp] theorem firstFailure_cons (ok : Bool) (c : Cause) (rest : List (Bool × Cause)) :
    firstFailure ((ok, c) :: rest) = if ok then firstFailure rest else some c := rfl

theorem firstFailure_eq_none_iff (checks : List (Bool × Cause)) :
    firstFailure checks = Option.none ↔ ∀ x ∈ checks, x.1 = true := by
  induction checks with
  | nil => simp
  | cons x rest ih =>
    obtain ⟨ok, c⟩ := x
    cases ok <;> simp [ih]

/-- A fault raised is the cause of one of the checks listed, and that check failed. -/
theorem firstFailure_mem {checks : List (Bool × Cause)} {c : Cause}
    (h : firstFailure checks = some c) : (false, c) ∈ checks := by
  induction checks with
  | nil => simp at h
  | cons x rest ih =>
    obtain ⟨ok, c'⟩ := x
    cases ok with
    | true => exact List.mem_cons_of_mem _ (ih (by simpa using h))
    | false => simp at h; simp [h]

theorem checked_of_pass {checks : List (Bool × Cause)} (effect : Regs → Regs) (s : State)
    (h : firstFailure checks = Option.none) :
    checked checks effect s = .next (s.withRegs (effect s.regs).complete) := by
  simp [checked, h]

theorem checked_of_fail {checks : List (Bool × Cause)} {c : Cause} (effect : Regs → Regs) (s : State)
    (h : firstFailure checks = some c) : checked checks effect s = .next (s.takeFault c) := by
  simp [checked, h]

/-- All that a checked completion can do: take the fault of a check that failed, or have its effect. -/
theorem checked_cases {checks : List (Bool × Cause)} {effect : Regs → Regs} {s t : State}
    (h : checked checks effect s = .next t) :
    (∃ c, (false, c) ∈ checks ∧ t = s.takeFault c) ∨
      ((∀ x ∈ checks, x.1 = true) ∧ t = s.withRegs (effect s.regs).complete) := by
  unfold checked at h
  split at h
  · rename_i c hc
    exact .inl ⟨c, firstFailure_mem hc, by simpa using h.symm⟩
  · rename_i hc
    exact .inr ⟨(firstFailure_eq_none_iff _).1 hc, by simpa using h.symm⟩

/-! ### Report rows -/

@[simp] theorem rowAt_zero (r : Regs) : r.rowAt 0 = Row.empty := rfl

theorem rowAt_setRow_same (r : Regs) {w : Nat} (row : Row) (h1 : 1 ≤ w) (h2 : w ≤ 32) :
    (r.setRow w row).rowAt w = row := by
  have hw : w ≠ 0 := by omega
  have hlt : w - 1 < 32 := by omega
  simp [Regs.rowAt, Regs.setRow, hw, hlt]

theorem rowAt_setRow_other (r : Regs) {w v : Nat} (row : Row) (h : v ≠ w) :
    (r.setRow w row).rowAt v = r.rowAt v := by
  unfold Regs.rowAt Regs.setRow
  by_cases hw : w = 0
  · simp [hw]
  · by_cases hv : v = 0
    · simp [hv]
    · have : w - 1 ≠ v - 1 := by omega
      simp [hw, hv, this]

/-- The rows of a report written whole. -/
theorem rowAt_reportOf (r : Regs) (f : Nat → Row) {w : Nat} (h1 : 1 ≤ w) (h2 : w ≤ 32) :
    Regs.rowAt { r with report := reportOf f } w = f w := by
  have hw : w ≠ 0 := by omega
  have hlt : w - 1 < 32 := by omega
  simp [Regs.rowAt, reportOf, hw, hlt, Nat.sub_add_cancel h1]

end Sys2Proof.Machine
end

