-- ==== Sys2Proof/Laws/Exec.lean ====
section
/-! SUPPORT. What a command does when it completes without a fault, and the one inversion lemma over all
commands. -/

namespace Sys2Proof.Machine

/-- The registers after a command's pseudocode, before BUSY and DONE are written (the effect in each
command's rule). -/
def commandEffect (i : Instr) (r : Regs) : Regs :=
  match i with
  | .nop => r
  | .divrem len => { r with rem := polymod r.divd (r.dividendLength len) r.gpoly r.degree }
  | .encode => { r with cw := encodeInfo r.info r.infoLength r.gpoly r.degree }
  | .check =>
    { r with
      synd := polymod r.rx r.codeLength r.gpoly r.degree
      status := { r.status with errdet := hasError r.rx r.codeLength r.gpoly r.degree } }
  | .enumFirst w =>
    { r with evec := firstVector r.codeLength w, status := { r.status with enumValid := true } }
  | .enumNext =>
    { r with
      evec := (nextVector r.codeLength r.evec).2
      status := { r.status with enumValid := (nextVector r.codeLength r.evec).1 } }
  | .analyzeW w => r.setRow w (detectionRow r.cw r.codeLength r.gpoly r.degree w)
  | .analyze => r.writeReport r.cw
  | .run => r.encodeThenReport

/-- The checks of a command, in the order of its rule (60_exceptions.md R209). -/
def commandChecks (i : Instr) (r : Regs) : List (Bool × Cause) :=
  match i with
  | .nop => []
  | .divrem len =>
    [(r.generatorOk, .malformedPoly), (len != 0 || r.configOk, .badConfig), (decide (len ≤ 32), .badArg),
      (noBitFrom r.divd (r.dividendLength len), .operandRange)]
  | .encode =>
    [(r.generatorOk, .malformedPoly), (r.configOk, .badConfig), (noBitFrom r.info r.infoLength, .operandRange)]
  | .check =>
    [(r.generatorOk, .malformedPoly), (r.configOk, .badConfig), (noBitFrom r.rx r.codeLength, .operandRange)]
  | .enumFirst w => [(r.configOk, .badConfig), (decide (w ≤ r.codeLength), .badArg)]
  | .enumNext => [(r.configOk, .badConfig), (r.status.enumValid, .enumState)]
  | .analyzeW w =>
    [(r.generatorOk, .malformedPoly), (r.configOk, .badConfig),
      (decide (1 ≤ w) && decide (w ≤ r.codeLength), .badArg), (noBitFrom r.cw r.codeLength, .operandRange)]
  | .analyze =>
    [(r.generatorOk, .malformedPoly), (r.configOk, .badConfig), (noBitFrom r.cw r.codeLength, .operandRange)]
  | .run =>
    [(r.generatorOk, .malformedPoly), (r.configOk, .badConfig), (noBitFrom r.info r.infoLength, .operandRange)]

/-- Every command is its checks and its effect, with the completion around them. -/
theorem exec_eq_checked (i : Instr) (s : State) :
    exec i s = checked (commandChecks i s.regs) (commandEffect i) s := by
  cases i <;> rfl

theorem commandChecks_cause {i : Instr} {r : Regs} {x : Bool × Cause} (h : x ∈ commandChecks i r) :
    x.2 ≠ Cause.none := by
  cases i <;> simp [commandChecks] at h
  all_goals aesop

/-- All that a command can do: take the fault of a check of its that failed, or have its effect and
complete. -/
theorem exec_cases {i : Instr} {s t : State} (h : exec i s = .next t) :
    (∃ c, (false, c) ∈ commandChecks i s.regs ∧ c ≠ Cause.none ∧ t = s.takeFault c) ∨
      ((∀ x ∈ commandChecks i s.regs, x.1 = true) ∧
        t = s.withRegs (commandEffect i s.regs).complete) := by
  rw [exec_eq_checked] at h
  obtain ⟨c, hc, ht⟩ | hp := checked_cases h
  · exact .inl ⟨c, hc, commandChecks_cause hc, ht⟩
  · exact .inr hp

/-- A command leaves the Host agent, the turns and the counters of rounds and draws as they are. -/
theorem exec_outside {i : Instr} {s t : State} (h : exec i s = .next t) :
    t.host = s.host ∧ t.sched = s.sched ∧ t.rounds = s.rounds ∧ t.draws = s.draws := by
  obtain ⟨c, _, _, rfl⟩ | ⟨_, rfl⟩ := exec_cases h <;> simp

end Sys2Proof.Machine
end

