-- ==== Sys2Proof/Laws/HostPort.lean ====
section
/-! SUPPORT. What an access on the host port can do: where an address lies, which register an offset names,
and all that a write can do to the registers. -/

namespace Sys2Proof.Machine

theorem windowOffset_base_add (base : Nat) {off : Nat} (h : off < 0x400) :
    windowOffset base (base + off) = some off := by
  simp [windowOffset, h]

theorem windowOffset_eq_some {base addr off : Nat} (h : windowOffset base addr = some off) :
    addr = base + off ∧ off < 0x400 := by
  unfold windowOffset at h
  split at h
  · simp at h; omega
  · simp at h

theorem busAccess_accepted {off : Nat} (op : BusOp) (s : State) (h : off < 0x400) (ha : off % 4 = 0) :
    busAccess { addr := Config.cycBase + off, bits := 32, op := op } s = .next (s.accessAt off op) := by
  simp [busAccess, windowOffset_base_add _ h, acceptedForm, ha]

/-- An access that goes on was an aligned 32-bit one inside the window. -/
theorem busAccess_cases {a : BusAccess} {s t : State} (h : busAccess a s = .next t) :
    ∃ off, a.addr = Config.cycBase + off ∧ off < 0x400 ∧ off % 4 = 0 ∧ a.bits = 32 ∧
      t = s.accessAt off a.op := by
  unfold busAccess at h
  split at h
  · simp at h
  · rename_i off ho
    obtain ⟨h1, h2⟩ := windowOffset_eq_some ho
    split at h
    · rename_i hf
      simp [acceptedForm] at hf
      exact ⟨off, h1, h2, hf.2, hf.1, by simpa using h.symm⟩
    · simp at h

/-- The register map and the offsets agree (10_state.md R20). -/
theorem regAt_offset {g : Reg} (h : g.wellFormed = true) : regAt g.offset = some g := by
  cases g with
  | row w f =>
    simp [Reg.wellFormed] at h
    obtain ⟨h1, h2⟩ := h
    interval_cases w <;> cases f <;> rfl
  | _ => rfl

/-- All that a write to the window can do to the registers: nothing, a drop, a soft reset, or one
update; an operand or configuration register or PEND only while BUSY = 0. -/
theorem writeAt_cases (r : Regs) (off : Nat) (v : Word) :
    r.writeAt off v = r ∨ r.writeAt off v = r.dropWrite ∨ r.writeAt off v = Regs.reset ∨
      r.writeAt off v = { r with ie := v.getLsbD 0 } ∨
      r.writeAt off v = { r with status := r.status.writeOneToClear v } ∨
      (r.status.busy = false ∧
        ((r.status.fault = false ∧ r.writeAt off v = r.latch v) ∨
          r.writeAt off v = r.writeCfgN v ∨ r.writeAt off v = { r with gdeg := v.setWidth 5 } ∨
          r.writeAt off v = { r with gpoly := v } ∨ r.writeAt off v = { r with info := v } ∨
          r.writeAt off v = { r with cw := v } ∨ r.writeAt off v = { r with rx := v } ∨
          r.writeAt off v = { r with divd := v })) := by
  unfold Regs.writeAt
  cases regAt off with
  | none => exact .inl rfl
  | some g =>
    cases g with
    | ctrl =>
      simp only [Regs.writeReg, Regs.writeCtrl]
      split
      · exact .inr (.inr (.inl rfl))
      · exact .inr (.inr (.inr (.inl rfl)))
    | _ =>
      cases hb : r.status.busy <;> cases hf : r.status.fault <;>
        simp [Regs.writeReg, Regs.unlessBusy, Regs.issue, hb, hf]

/-- An accepted access writes the registers or leaves them, and leaves the program and the turns. -/
theorem accessAt_cases (s : State) (off : Nat) (op : BusOp) :
    (s.accessAt off op).sched = s.sched ∧ (s.accessAt off op).host.prog = s.host.prog ∧
      (s.accessAt off op).host.pos = s.host.pos ∧
      ((s.accessAt off op).regs = s.regs ∨ ∃ v, (s.accessAt off op).regs = s.regs.writeAt off v) := by
  cases op with
  | read => simp [State.accessAt]
  | write v => exact ⟨rfl, rfl, rfl, .inr ⟨v, rfl⟩⟩

end Sys2Proof.Machine
end

