-- ==== Sys2Proof/Laws/PerInstr.lean ====
section
/-! SUPPORT. Facts about every command as syntax, one lemma per constructor: the word of a well-formed
command matches its row of the opcode map (30_encoding.md R81) and carries its argument in ARG. -/

namespace Sys2Proof.Laws.MatchesRow

/-- The mask of a command's row (30_encoding.md R81). -/
def rowMask : Instr → Word
  | .divrem _ => 0xFFFFC0FF
  | .enumFirst _ => 0xFFFFC0FF
  | .analyzeW _ => 0xFFFFC0FF
  | .nop => 0xFFFFFFFF
  | .encode => 0xFFFFFFFF
  | .check => 0xFFFFFFFF
  | .enumNext => 0xFFFFFFFF
  | .analyze => 0xFFFFFFFF
  | .run => 0xFFFFFFFF

/-- The match of a command's row (30_encoding.md R81). -/
def rowMatch : Instr → Word
  | .nop => 0x00000000
  | .divrem _ => 0x00000001
  | .encode => 0x00000002
  | .check => 0x00000003
  | .enumFirst _ => 0x00000004
  | .enumNext => 0x00000005
  | .analyzeW _ => 0x00000006
  | .analyze => 0x00000007
  | .run => 0x00000008

/-- The word of a well-formed command matches its row, and its ARG is the command's argument. -/
def Statement (i : Instr) : Prop :=
  i.wellFormed = true → encode i &&& rowMask i = rowMatch i ∧ fieldArg (encode i) = i.argument

theorem nop : Statement .nop := by intro _; decide

theorem divrem (len : Nat) : Statement (.divrem len) := by
  intro h
  replace h : len < 64 := by simpa [Instr.wellFormed, argFits] using h
  revert h; revert len; decide +kernel

theorem encode : Statement .encode := by intro _; decide

theorem check : Statement .check := by intro _; decide

theorem enumFirst (w : Nat) : Statement (.enumFirst w) := by
  intro h
  replace h : w < 64 := by simpa [Instr.wellFormed, argFits] using h
  revert h; revert w; decide +kernel

theorem enumNext : Statement .enumNext := by intro _; decide

theorem analyzeW (w : Nat) : Statement (.analyzeW w) := by
  intro h
  replace h : w < 64 := by simpa [Instr.wellFormed, argFits] using h
  revert h; revert w; decide +kernel

theorem analyze : Statement .analyze := by intro _; decide

theorem run : Statement .run := by intro _; decide

end Sys2Proof.Laws.MatchesRow
end

