-- ==== Sys2Proof/Laws/Step.lean ====
section
/-! SUPPORT. What one step can do, said once for each agent and once for the machine (00_scope.md R12). -/

namespace Sys2Proof.Machine

/-- All that the Host agent's step can do to the block: at most one write. -/
theorem hostStep_cases {s t : State} (h : hostStep s = .next t) :
    t.sched = s.sched ∧ t.host.prog = s.host.prog ∧
      (t.regs = s.regs ∨ ∃ off v, t.regs = s.regs.writeAt off v) := by
  unfold hostStep at h
  split at h
  · rename_i st _
    cases st with
    | access a =>
      obtain ⟨off, _, _, _, _, rfl⟩ := busAccess_cases h
      obtain ⟨h1, h2, _, h4⟩ := accessAt_cases (s.hostAt (s.host.pos + 1)) off a.op
      refine ⟨h1, h2, ?_⟩
      obtain h4 | ⟨v, h4⟩ := h4
      · exact .inl h4
      · exact .inr ⟨off, v, h4⟩
    | label l =>
      obtain rfl : s.hostAt (s.host.pos + 1) = t := by simpa [runStmt] using h
      simp
    | branch c l =>
      simp only [runStmt, hostGoto] at h
      split at h
      · split at h
        · obtain rfl : s.hostAt _ = t := by simpa using h
          simp
        · simp at h
      · obtain rfl : s.hostAt (s.host.pos + 1) = t := by simpa using h
        simp
  · obtain rfl : s = t := by simpa using h
    simp

/-- The completion of the pending word: its command, or ILLEGAL_CMD. -/
theorem completePending_cases {s t : State} (h : completePending s = .next t) :
    (∃ i, decode s.regs.pend = .ok i ∧ exec i s = .next t) ∨
      (∃ e, decode s.regs.pend = .error e ∧ t = s.takeFault .illegalCmd) := by
  unfold completePending at h
  split at h
  · rename_i i hi
    exact .inl ⟨i, hi, h⟩
  · rename_i e he
    exact .inr ⟨e, he, by simpa using h.symm⟩

/-- All that the pending word's completion can do. -/
theorem completePending_regs {s t : State} (h : completePending s = .next t) :
    (∃ c, c ≠ Cause.none ∧ t = s.takeFault c) ∨
      ∃ i, decode s.regs.pend = .ok i ∧ t = s.withRegs (commandEffect i s.regs).complete := by
  obtain ⟨i, hi, he⟩ | ⟨_, _, rfl⟩ := completePending_cases h
  · obtain ⟨c, _, hc, ht⟩ | ⟨_, ht⟩ := exec_cases he
    · exact .inl ⟨c, hc, ht⟩
    · exact .inr ⟨i, hi, ht⟩
  · exact .inl ⟨.illegalCmd, by decide, rfl⟩

/-- A listed turn is taken, and nothing else changes. -/
theorem takeTurn_listed {s : State} {t : Turn} {rest : List Turn} (h : s.sched = t :: rest) :
    takeTurn s = (t, { s with sched := rest }) := by
  simp [takeTurn, h]

/-- With no turn listed the round closes and the next one is free. -/
theorem takeTurn_closing {s : State} (h : s.sched = []) :
    takeTurn s = (closingTurn s.regs.status,
      { s with sched := Config.freeTurns s.rounds, rounds := s.rounds + 1 }) := by
  simp [takeTurn, h]

@[simp] theorem closingTurn_busy {f : Status} (h : f.busy = true) : closingTurn f = .core := by
  simp [closingTurn, h]

@[simp] theorem closingTurn_idle {f : Status} (h : f.busy = false) : closingTurn f = .host := by
  simp [closingTurn, h]

@[simp] theorem takeTurn_regs (s : State) : (takeTurn s).2.regs = s.regs := by
  unfold takeTurn; split <;> rfl

@[simp] theorem takeTurn_host (s : State) : (takeTurn s).2.host = s.host := by
  unfold takeTurn; split <;> rfl

@[simp] theorem takeTurn_draws (s : State) : (takeTurn s).2.draws = s.draws := by
  unfold takeTurn; split <;> rfl

/-- All that one step can do to the registers: a reset, nothing, one host write, or (while BUSY = 1) the
completion of the pending command. -/
theorem step_cases {s t : State} (h : step s = .next t) :
    t.regs = Regs.reset ∨ t.regs = s.regs ∨ (∃ off v, t.regs = s.regs.writeAt off v) ∨
      (s.regs.status.busy = true ∧ completePending (takeTurn s).2 = .next t) := by
  unfold step agentStep at h
  split at h
  · obtain ⟨_, _, hr | hw⟩ := hostStep_cases h
    · exact .inr (.inl (by simpa using hr))
    · exact .inr (.inr (.inl (by simpa using hw)))
  · unfold coreStep at h
    split at h
    · rename_i hb
      exact .inr (.inr (.inr ⟨by simpa using hb, h⟩))
    · refine .inr (.inl ?_)
      obtain rfl : (takeTurn s).2 = t := by simpa using h
      simp
  · refine .inl ?_
    obtain rfl : (takeTurn s).2.resetBlock = t := by simpa using h
    simp

end Sys2Proof.Machine
end

