-- ==== Sys2Proof/Tests/Slice0.lean ====
section
/-! SUPPORT. Tests of the model against the spec's own vectors (95_test_vectors.md, named V-…), the smoke
tests of WellFormed.lean, and a concrete witness for the hypotheses of each statement. Every expected value
is the spec's, or is written out by hand from its encoding tables. -/

namespace Sys2Proof.Tests

open Sys2Proof Sys2Proof.Machine Sys2Proof.Claims

/-! ### Helpers -/

/-- The reset configuration of 95_test_vectors.md, "RC". -/
abbrev rc : Regs := Regs.reset

/-- A state with the given registers. -/
abbrev st (r : Regs) : State := { State.reset with regs := r }

/-- The registers after the next step runs the command word `w` issued on `r`. -/
def ran (r : Regs) (w : Nat) : Option Regs :=
  (nextState (step ((st r).withFetchWord 32 w))).map fun s => s.regs

/-- STATUS as a read shows it after the command word `w`. -/
def ranStatus (r : Regs) (w : Nat) : Option Word := (ran r w).map fun t => t.status.toWord

/-! ### WellFormed refuses an ill-formed term of each kind -/

theorem test_wf_divrem_arg_64_refused : (Instr.divrem 64).wellFormed = false := by decide
theorem test_wf_enumFirst_arg_64_refused : (Instr.enumFirst 64).wellFormed = false := by decide
theorem test_wf_analyzeW_arg_64_refused : (Instr.analyzeW 64).wellFormed = false := by decide
theorem test_wf_arg_63_accepted : (Instr.divrem 63).wellFormed = true := by decide
theorem test_wf_row_0_refused : (Reg.row 0 .total).wellFormed = false := by decide
theorem test_wf_row_33_refused : (Reg.row 33 .total).wellFormed = false := by decide
theorem test_wf_label_twice_refused : labelsDistinct [.label 1, .label 1] = false := by decide
theorem test_wf_label_missing_refused : targetsDefined [.branch (condSet 1) 1] = false := by decide
theorem test_wf_wait_accepted :
    programWellFormed [.label 1, .branch (condSet 1) 1] = true := by decide

/-! ### Decoding: words written out bit by bit from 30_encoding.md R80, R81 -/

theorem test_decode_nop : decode 0b000000000000000000_000000_00000000#32 = .ok .nop := by decide
theorem test_decode_divrem : decode 0b000000000000000000_000100_00000001#32 = .ok (.divrem 4) := by decide
theorem test_decode_encode : decode 0b000000000000000000_000000_00000010#32 = .ok .encode := by decide
theorem test_decode_check : decode 0b000000000000000000_000000_00000011#32 = .ok .check := by decide
theorem test_decode_enumFirst :
    decode 0b000000000000000000_000010_00000100#32 = .ok (.enumFirst 2) := by decide
theorem test_decode_enumNext : decode 0b000000000000000000_000000_00000101#32 = .ok .enumNext := by decide
theorem test_decode_analyzeW :
    decode 0b000000000000000000_000011_00000110#32 = .ok (.analyzeW 3) := by decide
theorem test_decode_analyze : decode 0b000000000000000000_000000_00000111#32 = .ok .analyze := by decide
theorem test_decode_run : decode 0b000000000000000000_000000_00001000#32 = .ok .run := by decide
/-- V-CTL-2, 3, 4: one word of each illegal kind. -/
theorem test_decode_illegal :
    decode 0x00000009#32 = .error .reservedOpcode ∧ decode 0x00000100#32 = .error .argNotZero ∧
      decode 0x00004000#32 = .error .reservedBits := by decide
theorem test_table_word : decodeTableWord 32 0x00000401 = some (.divrem 4) := by decide
theorem test_table_word_illegal : decodeTableWord 32 0x00004000 = none := by decide
theorem test_bytes_little_endian :
    decodeBytes [0x04, 0x02, 0x00, 0x00] = .ok (.enumFirst 2, []) ∧
      decodeBytes [0x00, 0x00, 0x02] = .error .truncated := by decide
/-- V-BUS-4: the word 0x00000002 as bytes is 02 00 00 00. -/
theorem test_lanes_of_status : bytesOfWord 0x00000002#32 = [0x02, 0x00, 0x00, 0x00] := by decide

/-! ### Commands -/

/-- V-CTL-1. -/
theorem test_nop : ranStatus rc 0x00000000 = some 0x00000002#32 := by decide
/-- V-CTL-2: an illegal word faults ILLEGAL_CMD. -/
theorem test_illegal : ranStatus rc 0x00000009 = some 0x00000104#32 := by decide
/-- V-DIV-6. -/
theorem test_divrem :
    (ran { rc with divd := 0x80000000 } 0x00002001).map (·.rem) = some 0x00000003#32 := by decide +kernel
/-- V-DIV-16: GOK and CfgOK both fail; the first check wins. -/
theorem test_divrem_priority : ranStatus { rc with gdeg := 31 } 0x00000001 = some 0x00000204#32 := by decide
/-- V-ENC-1, INFO = 0xB. -/
theorem test_encode : (ran { rc with info := 0xB } 0x00000002).map (·.cw) = some 0x00000058#32 := by decide
/-- V-ENC-3f. -/
theorem test_encode_stray : ranStatus { rc with info := 0x10 } 0x00000002 = some 0x00000504#32 := by decide
/-- V-CHK-1, RX = 0x5C. -/
theorem test_check : (ran { rc with rx := 0x5C } 0x00000003).map (fun r => (r.synd, r.status.toWord)) =
    some (0x4#32, 0x0000000A#32) := by decide
/-- V-ENUM-11. -/
theorem test_enum_first :
    (ran { rc with cfgN := 32 } 0x00002004).map (·.evec) = some 0xFFFFFFFF#32 := by decide
/-- V-CTL-6: ENUM_FIRST 63 is a legal word and a BAD_ARG fault. -/
theorem test_enum_first_63 : ranStatus rc 0x00003F04 = some 0x00000404#32 := by decide
/-- V-ENUM-1: from 0b1001 (positions 0 and 3) to 0b0110 (positions 1 and 2). -/
theorem test_enum_next :
    (ran { rc with cfgN := 4, evec := 0x9, status := { Status.reset with enumValid := true } } 5).map
      (fun r => (r.evec, r.status.enumValid)) = some (0x6#32, true) := by decide +kernel
/-- V-ENUM-1, past the last vector. -/
theorem test_enum_next_last :
    (ran { rc with cfgN := 4, evec := 0x3, status := { Status.reset with enumValid := true } } 5).map
      (fun r => (r.evec, r.status.toWord)) = some (0x0#32, 0x00000002#32) := by decide +kernel
/-- V-RATE-1: a tie, 312.5, rounded to even. -/
theorem test_analyzeW_tie :
    (ran { rc with gpoly := 2, gdeg := 1, cfgN := 32 } 0x00000106).map (·.rowAt 1) =
      some { total := 32, det := 1, rate := 312, weight := 1 } := by decide +kernel
/-- V-AN-8a: the other rows and ROWS unchanged. -/
theorem test_analyzeW_one_row :
    (ran { rc with cw := 0x58 } 0x00000306).map (fun r => (r.rowAt 3, r.rowAt 4, r.rows)) =
      some ({ total := 35, det := 28, rate := 8000, weight := 3 }, Row.empty, 0) := by decide +kernel
/-- V-AN-9: rows above N are cleared. -/
theorem test_analyze_clears :
    (ran ({ rc with cfgN := 4 }.setRow 5 { total := 21, det := 21, rate := 10000, weight := 5 }) 7).map
      (fun r => (r.rowAt 3, r.rowAt 5, r.rows)) =
      some ({ total := 4, det := 3, rate := 7500, weight := 3 }, Row.empty, 4) := by decide +kernel
/-- V-AN-6: a CW that is not a codeword. -/
theorem test_analyze_non_codeword :
    (ran { rc with cw := 1 } 7).map (·.rowAt 3) =
      some { total := 35, det := 31, rate := 8857, weight := 3 } := by decide +kernel
/-- S8 and V-A. -/
theorem test_run :
    (ran { rc with info := 0xB } 8).map (fun r => (r.cw, r.rows, r.rowAt 7)) =
      some (0x58#32, 7, { total := 1, det := 0, rate := 0, weight := 7 }) := by decide +kernel
/-- V-AN-8h: a fault leaves CW and the rows. -/
theorem test_run_stray :
    (ran { rc with info := 0x1F, cw := 0x58 } 8).map (fun r => (r.cw, r.rows, r.status.toWord)) =
      some (0x58#32, 0, 0x00000504#32) := by decide

/-! ### The host port -/

/-- V-CTL-11: SRST wins over IE. -/
theorem test_soft_reset : (({ rc with gpoly := 3, ie := true }).writeAt 0x000 3).ie = false := by decide
/-- V-CTL-14, V-CTL-15. -/
theorem test_config_masks :
    (rc.writeAt 0x014 0xFFFFFFE3).readAt 0 0x014 = 0x3#32 ∧
      (rc.writeAt 0x018 0xC4).readAt 0 0x018 = 0x4#32 ∧ (rc.writeAt 0x018 0xC4).readAt 0 0x01C = 0x1#32 := by
  decide
/-- V-FLT-1: a command while faulted is dropped. -/
theorem test_command_while_faulted :
    ((rc.takeFault .badArg).writeAt 0x008 0).status.toWord = 0x00000424#32 := by decide
/-- 10_state.md R38: ROW[3].RATE is at 0x138 and ROW[32].W at 0x30C; row 0 and 0x310 are reserved. -/
theorem test_row_offsets :
    regAt 0x138 = some (.row 3 .rate) ∧ regAt 0x30C = some (.row 32 .weight) ∧ regAt 0x10C = none ∧
      regAt 0x310 = none := by decide
/-- R47: with ENCODE pending, CW is drawn and INFO is not. -/
theorem test_busy_read_drawn :
    (rc.latch 2).readAt 0xDEADBEEF 0x024 = 0xDEADBEEF#32 ∧ (rc.latch 2).readAt 0xDEADBEEF 0x020 = 0#32 := by
  decide
/-- V-BUS-1, V-BUS-2: an 8-bit write of CMD and a misaligned read. -/
theorem test_bus_errors :
    busAccess { addr := Config.cycBase + 0x008, bits := 8, op := .write 1 } State.reset = .fault .busError ∧
      busAccess { addr := Config.cycBase + 0x006, bits := 32, op := .read } State.reset = .fault .busError := by
  simp [busAccess, windowOffset, acceptedForm]
/-- `wr CMD, 0` issues NOP through the host's step; with no turn listed the Core completes it next. -/
theorem test_host_issues :
    (hostStep { State.reset with host := { prog := asmCmd .nop, pos := 0, last := 0 } }) =
      .next { State.reset with
        regs := rc.latch 0, host := { prog := asmCmd .nop, pos := 1, last := 0 } } := by
  simp only [hostStep, State.hostStmt, asmCmd, asmWr, List.getElem?_cons_zero, runStmt]
  rw [busAccess_accepted _ _ (by decide) (by decide)]
  rfl
/-- A branch to a missing label stops the run. -/
theorem test_undefined_label :
    runStmt (.branch (condClear 1) 9) State.reset = .fault .undefinedLabel := rfl

/-! ### Witnesses: the hypotheses of each statement can be met together

One theorem per statement that has hypotheses; where a statement has several clauses, one conjunct per
clause, at a boundary of its range where it has one. -/

/-- A state whose pending word is `w`, with the Core's turn next. -/
abbrev pending (r : Regs) (w : Word) : State := (st r).issuedNext w

theorem witness_IllegalWordsFaultIllegalCmd :
    decode (pending rc 0x4000).regs.pend = .error .reservedBits ∧
      decode (pending rc 0x100).regs.pend = .error .argNotZero ∧
      decode (pending rc 0x09).regs.pend = .error .reservedOpcode := by decide
theorem witness_DecodeOfEncodeIsIdentity :
    (Instr.divrem 0).wellFormed = true ∧ (Instr.enumFirst 63).wellFormed = true ∧
      Instr.run.wellFormed = true := by decide
theorem witness_EncodeOfDecodeIsIdentity : decode 0x3F06#32 = .ok (.analyzeW 63) := by decide
theorem witness_ByteLanesAreLittleEndian :
    (0 < 4 ∧ 7 < 8) ∧ decode 0x00000105#32 = .error .argNotZero ∧ decode 0x00000005#32 = .ok .enumNext := by
  decide
theorem witness_PolymodIsPolynomialRemainder :
    32 ≤ 32 ∧ 31 ≤ 31 ∧ generatorWellFormed 0x80000001 31 ∧ clearFrom 0xFFFFFFFF 32 := by decide
theorem witness_PolymodProperties :
    (7 ≤ 32 ∧ 3 ≤ 31 ∧ generatorWellFormed 0xB 3 ∧ clearFrom 0x5C 7 ∧ clearFrom 0x7F 7) ∧
      (generatorWellFormed 0xB 3 ∧ clearFrom 0x3 2 ∧ 2 ≤ 3) ∧ (generatorWellFormed 0x1 0 ∧ clearFrom 0x7F 7) ∧
      clearFrom 0x4 3 := by decide
theorem witness_DivremWritesRemainder :
    ¬ gOk { rc with gpoly := 3 } ∧ (gOk rc ∧ ¬ cOk { rc with cfgN := 0 }) ∧ (gOk rc ∧ 32 < 33) ∧
      (gOk rc ∧ cOk rc ∧ ¬ clearFrom 0xFFFFFFFF 7) ∧ (gOk rc ∧ 32 ≤ 32 ∧ clearFrom 0xFFFFFFFF 32) ∧
      (gOk rc ∧ cOk rc ∧ clearFrom 0x7F 7) := by decide
theorem witness_DivremCornerCases :
    (gOk rc ∧ 2 ≤ 32 ∧ clearFrom 0x3 2 ∧ 2 ≤ 3) ∧ (gOk rc ∧ cOk rc ∧ clearFrom 0x0 7) ∧
      (gOk { rc with gpoly := 1, gdeg := 0 } ∧ clearFrom 0x12345678 32) ∧
      (gOk rc ∧ clearFrom rc.gpoly 4 ∧ 3 + 1 ≤ 4) := by decide
theorem witness_EncodeWritesCodeword :
    ¬ gOk { rc with gpoly := 0x1B } ∧ (gOk rc ∧ ¬ cOk { rc with cfgN := 33 }) ∧
      (gOk rc ∧ cOk rc ∧ ¬ clearFrom 0x10 (7 - 3)) ∧ (gOk rc ∧ cOk rc ∧ clearFrom 0xF (7 - 3)) := by decide
theorem witness_CodewordProperties :
    configLegal (1 + 31) 31 ∧ generatorWellFormed 0x80000001 31 ∧ clearFrom 0x1 1 ∧ clearFrom 0x0 1 := by decide
theorem witness_CheckOfEncodedWordIsClean :
    gOk (st { rc with info := 0xB }).regs ∧ cOk (st { rc with info := 0xB }).regs ∧ clearFrom 0xB (7 - 3) := by
  decide
theorem witness_CheckWritesSyndrome :
    ¬ gOk { rc with gpoly := 0 } ∧ (gOk rc ∧ ¬ cOk { rc with cfgN := 3 }) ∧
      (gOk rc ∧ cOk rc ∧ ¬ clearFrom 0x80 7) ∧ (gOk rc ∧ cOk rc ∧ clearFrom 0x5C 7) := by decide
theorem witness_DetectionDependsOnErrorOnly :
    configLegal 7 3 ∧ generatorWellFormed 0xB 3 ∧ clearFrom 0x58 7 ∧ clearFrom 0x04 7 ∧
      polymod 0x58 7 0xB 3 = 0 := by decide
theorem witness_ErrorVectorsListEveryPatternOnce : 0 ≤ 0 ∧ 32 ≤ 32 := by decide
theorem witness_NextFollowsEnumeration :
    (errorVectors 4 2)[0]? = some 0xC ∧ (errorVectors 4 2)[1]? = some 0xA ∧
      (errorVectors 4 2)[5]? = some 0x3 ∧ (errorVectors 4 2)[6]? = none := by decide +kernel
theorem witness_EnumFirstStartsEnumeration :
    ¬ cOk { rc with cfgN := 0 } ∧ (cOk rc ∧ rc.cfgN.toNat < 8) ∧ (cOk rc ∧ 7 ≤ rc.cfgN.toNat) := by decide
theorem witness_EnumNextStepsEnumeration :
    ¬ cOk { rc with cfgN := 3 } ∧ (cOk rc ∧ rc.status.enumValid = false) ∧
      cOk { rc with status := { rc.status with enumValid := true } } := by decide
theorem witness_EnumerationVisitsEveryErrorVector :
    cOk { rc with cfgN := 4 } ∧ 2 ≤ 4 ∧ (errorVectors 4 2)[5]? = some 0x3 := by decide +kernel
theorem witness_EnumeratorIgnoresGenerator :
    ∃ t, exec (.enumFirst 1) (st { rc with gpoly := 3 }) = .next t := ⟨_, rfl⟩
theorem witness_ConfigWriteEndsEnumeration :
    rc.status.busy = false ∧ cOk (rc.writeAt 0x018 7) ∧ ¬ cOk (rc.writeAt 0x018 3) := by decide
theorem witness_DetectionRowCounts :
    configLegal 7 3 ∧ generatorWellFormed 0xB 3 ∧ clearFrom 0x58 7 ∧ 1 ≤ 7 ∧ 7 ≤ 7 := by decide
theorem witness_DetectionRowRanges : configLegal 32 0 ∧ 1 ≤ 32 ∧ 32 ≤ 32 := by decide
theorem witness_DetectionRowDependsOnRemainderOnly :
    configLegal 7 3 ∧ generatorWellFormed 0xB 3 ∧ clearFrom 0x58 7 ∧ 1 ≤ 3 ∧ 3 ≤ 7 ∧
      polymod 0x58 7 0xB 3 = 0 := by decide
theorem witness_SingleBitErrorsAreDetected :
    configLegal 7 3 ∧ generatorWellFormed 0xB 3 ∧ clearFrom 0x58 7 ∧ polymod 0x58 7 0xB 3 = 0 ∧ 1 ≤ 3 ∧
      (0xB#32).getLsbD 0 = true := by decide
theorem witness_RateRoundsToNearestTiesToEven :
    1 ≤ 2 ∧ 2 * ((5 : Int) - (2 : Int) * (rne 5 2 : Int)).natAbs = 2 := by decide
theorem witness_AnalyzeWWritesOneRow :
    ¬ gOk { rc with gpoly := 3 } ∧ (gOk rc ∧ ¬ cOk { rc with cfgN := 33 }) ∧
      (gOk rc ∧ cOk rc ∧ rc.cfgN.toNat < 8) ∧ (gOk rc ∧ cOk rc ∧ 7 ≤ rc.cfgN.toNat ∧ ¬ clearFrom 0x80 7) ∧
      (gOk rc ∧ cOk rc ∧ 1 ≤ 7 ∧ 7 ≤ rc.cfgN.toNat ∧ clearFrom 0x58 7) := by decide
theorem witness_AnalyzeWritesReport :
    ¬ gOk { rc with gpoly := 3 } ∧ (gOk rc ∧ ¬ cOk { rc with cfgN := 33 }) ∧
      (gOk rc ∧ cOk rc ∧ ¬ clearFrom 0x80 7) ∧ (gOk rc ∧ cOk rc ∧ clearFrom 0x7F 7) := by decide
theorem witness_RunEncodesAndAnalyzes :
    ¬ gOk { rc with gpoly := 3 } ∧ (gOk rc ∧ ¬ cOk { rc with cfgN := 3 }) ∧
      (gOk rc ∧ cOk rc ∧ ¬ clearFrom 0x1F (7 - 3)) ∧ (gOk rc ∧ cOk rc ∧ clearFrom 0xF (7 - 3)) := by decide
theorem witness_RunEqualsEncodeThenAnalyze : gOk rc ∧ cOk rc ∧ clearFrom rc.info (7 - 3) := by decide
theorem witness_AnalyzeIsIdempotent : gOk rc ∧ cOk rc ∧ clearFrom rc.cw 7 := by decide
theorem witness_CommandsWriteOnlyTheirWriteSet :
    (∃ t, exec .check (st rc) = .next t) ∧ decode (pending rc 0x09).regs.pend = .error .reservedOpcode ∧
      writeSet .check .rem = false := ⟨⟨_, rfl⟩, by decide, by decide⟩
theorem witness_CausesOfEachCommand :
    (exec .encode (st { rc with gpoly := 3 }) = .next (faultedWith (st { rc with gpoly := 3 }) .malformedPoly)) ∧
      (exec (.divrem 0) (st { rc with cfgN := 0 }) =
        .next (faultedWith (st { rc with cfgN := 0 }) .badConfig)) ∧
      (exec (.analyzeW 0) (st rc) = .next (faultedWith (st rc) .badArg)) ∧
      (exec .check (st { rc with rx := 0x80 }) =
        .next (faultedWith (st { rc with rx := 0x80 }) .operandRange)) ∧
      (exec .enumNext (st rc) = .next (faultedWith (st rc) .enumState)) ∧ rc.status.fault = false :=
  ⟨rfl, rfl, rfl, rfl, rfl, rfl⟩
theorem witness_FaultsArePrecise :
    ∃ t, completePending (pending rc 0x09) = .next t ∧ (pending rc 0x09).regs.status.fault = false ∧
      t.regs.status.fault = true := ⟨_, rfl, rfl, rfl⟩
theorem witness_HostWriteEffects :
    (2#32).getLsbD 1 = true ∧ (1#32).getLsbD 1 = false ∧ (rc.latch 0).status.busy = true ∧
      (rc.takeFault .badArg).status.fault = true ∧ (rc.status.busy = false ∧ rc.status.fault = false) ∧
      0x02C ∈ droppedOffsets ∧ 0x030 ∉ droppedOffsets := by decide
theorem witness_BusyWritesAreDropped :
    (rc.latch 0).status.busy = true ∧ 0x008 ∈ droppedOffsets ∧ (0x22#32).getLsbD 5 = true ∧
      0x03C ∈ readOnlyOffsets := by decide
theorem witness_ReservedAndReadOnlyOffsets :
    (reservedOffset 0x00C ∧ reservedOffset 0x040 ∧ reservedOffset 0x10C ∧ reservedOffset 0x310 ∧
      reservedOffset 0x3FC) ∧ 0x03C ∈ readOnlyOffsets ∧ (0x110 ≤ 0x30C ∧ 0x30C < 0x310) := by
  simp [reservedOffset, readOnlyOffsets]
theorem witness_WindowReadAfterWrite :
    rc.status.busy = false ∧ (Reg.row 32 .weight).wellFormed = true ∧ Reg.row 32 .weight ≠ .status := by decide
theorem witness_CtrlReadsItsEnableBit :
    (0xFFFFFFFD#32).getLsbD 1 = false ∧ (0x00000003#32).getLsbD 1 = true := by decide
theorem witness_KViewFollowsConfiguration :
    rc.gdeg.toNat < rc.cfgN.toNat ∧ ({ rc with cfgN := 3 } : Regs).cfgN.toNat ≤ rc.gdeg.toNat := by decide
theorem witness_StatusReadsItsFields : (rc.takeFault .enumState).status.busy = false := by decide
theorem witness_ReadsHaveNoSideEffects :
    (pending rc 2).regs.drawnAt 0x020 = 0 ∧ (pending rc 2).regs.drawnAt 0x024 ≠ 0 := by decide
theorem witness_BusyReadsAreDraws :
    (rc.latch 3).status.busy = true ∧ decode (rc.latch 3).pend = .ok .check ∧ writeSet .check .synd = true ∧
      decode (rc.latch 5).pend = .ok .enumNext ∧ decode (rc.latch 0x104).pend = .ok (.enumFirst 1) ∧
      (rc.latch 3).status.coherent = true := by decide
theorem witness_OnlyAlignedWordAccessesAreAccepted :
    (0x3FC < 0x400 ∧ 0x3FC % 4 = 0) ∧ 0x3FD % 4 ≠ 0 ∧ Config.cycBase + 0x400 ≤ Config.cycBase + 0x400 :=
  ⟨by decide, by decide, le_refl _⟩
theorem witness_InterruptSignalsCompletion :
    ∃ t, completePending (pending { rc with ie := true } 0) = .next t ∧
      (pending { rc with ie := true } 0).regs.ie = true ∧ (1#32).getLsbD 0 = true ∧ (1#32).getLsbD 1 = false ∧
      (rc.takeFault .badArg).status.fault = true := ⟨_, rfl, rfl, by decide, by decide, rfl⟩
theorem witness_InterruptClearing :
    rc.status.fault = false ∧ (2#32).getLsbD 1 = true ∧ (rc.takeFault .badArg).status.fault = true ∧
      (2#32).getLsbD 0 = false ∧ (rc.latch 0).status.busy = true := by decide
theorem witness_WaitLoopsWhileBusy :
    (2#32).getLsbD 0 = false ∧ (1#32).getLsbD 0 = true ∧ labelPos (asmWait 1) 1 = some 0 := by
  refine ⟨by decide, by decide, rfl⟩
theorem witness_BothResetsResetTheBlock :
    ({ pending rc 7 with sched := [.rst] } : State).sched = .rst :: [] ∧ (3#32).getLsbD 1 = true := by decide
theorem witness_StepRunsDecodedCommand :
    takeTurn (pending rc 7) = (.core, { pending rc 7 with sched := [] }) ∧
      (pending rc 7).regs.status.busy = true ∧ decode (pending rc 7).regs.pend = .ok .analyze ∧
      decode (encode (.divrem 63)) = .ok (.divrem 63) ∧ (pending rc 7).sched = .core :: [] ∧
      (takeTurn { pending rc 7 with sched := [] }).1 = .core :=
  ⟨rfl, rfl, rfl, by decide, rfl, rfl⟩
theorem witness_StepKeepsStatusCoherent :
    (pending rc 8).regs.status.coherent = true ∧ ∃ t, step (pending rc 8) = .next t := ⟨by decide, _, rfl⟩
theorem witness_StepKeepsEnumeratorInRange :
    (pending rc 0x104).regs.enumeratorInRange = true ∧ ∃ t, step (pending rc 0x104) = .next t :=
  ⟨by decide, _, rfl⟩
/-- The report after reset is in range, so a pending ANALYZE is a witness. -/
theorem witness_StepKeepsReportInRange :
    (pending rc 7).regs.reportInRange ∧ ∃ t, step (pending rc 7) = .next t := by
  refine ⟨⟨by decide, fun w h1 h2 => .inl ?_⟩, _, rfl⟩
  have h : w - 1 < 32 := by omega
  simp [Regs.rowAt, Regs.latch, Regs.reset, h]
theorem witness_FaultLastsUntilReset :
    (rc.takeFault .badArg).status.coherent = true ∧ (rc.takeFault .badArg).status.fault = true ∧
      ∃ t, step (st (rc.takeFault .badArg)) = .next t := ⟨by decide, by decide, _, rfl⟩
theorem witness_ResultsChangeOnlyAtCompletion : ∃ t, step (st rc) = .next t := ⟨_, rfl⟩
theorem witness_OperandsHoldWhilePending :
    (rc.latch 7).status.busy = true ∧
      ∃ t, step { st (rc.latch 7) with sched := [.host] } = .next t ∧ t.regs.status.busy = true :=
  ⟨by decide, _, rfl, rfl⟩
theorem witness_PendingCommandCompletes : (pending rc 7).regs.status.busy = true := by decide

end Sys2Proof.Tests
end

section
/-! SUPPORT. The step invariants of STATUS and of the report: a coherent STATUS (10_state.md R27, R32;
60_exceptions.md R217) and report rows in their ranges (10_state.md R38, R39). -/

namespace Sys2Proof.Machine

/-! ### A coherent STATUS (10_state.md R27, R32; 60_exceptions.md R217) -/

theorem Status.coherent_iff (f : Status) :
    f.coherent = true ↔
      (f.busy = true → f.done = false ∧ f.fault = false) ∧ ¬(f.done = true ∧ f.fault = true) ∧
        (f.fault = true ↔ f.cause ≠ .none) := by
  obtain ⟨busy, done, fault, -, -, -, cause⟩ := f
  cases busy <;> cases done <;> cases fault <;> simp [Status.coherent]

theorem Status.coherent_reset : Status.reset.coherent = true := by decide

/-- All that a host write can do to STATUS. -/
theorem writeAt_status_cases (r : Regs) (off : Nat) (v : Word) :
    (r.writeAt off v).status = Status.reset ∨ (r.writeAt off v).status = r.status ∨
      (r.writeAt off v).status = r.status.dropped ∨
      (r.writeAt off v).status = r.status.writeOneToClear v ∨
      (r.writeAt off v).status = { r.status with enumValid := false } ∨
      (r.status.fault = false ∧ (r.writeAt off v).status = r.status.issued) := by
  obtain h | h | h | h | h | ⟨_, ⟨hf, h⟩ | h | h | h | h | h | h | h⟩ := writeAt_cases r off v <;>
    simp [Regs.reset, *]

theorem writeAt_keeps_coherent {r : Regs} (off : Nat) (v : Word) (hc : r.status.coherent = true) :
    (r.writeAt off v).status.coherent = true := by
  obtain h | h | h | h | h | ⟨hf, h⟩ := writeAt_status_cases r off v <;> rw [h]
  · exact Status.coherent_reset
  · exact hc
  · exact hc
  · rw [Status.coherent_iff] at hc ⊢
    obtain ⟨hbusy, hboth, hcause⟩ := hc
    have hdone : (r.status.writeOneToClear v).done = true → r.status.done = true := by simp
    refine ⟨fun hb => ?_, fun ⟨hd, hf⟩ => hboth ⟨hdone hd, hf⟩, hcause⟩
    obtain ⟨hd, hf⟩ := hbusy hb
    simp [hd, hf]
  · exact hc
  · rw [Status.coherent_iff] at hc ⊢
    obtain ⟨-, -, hcause⟩ := hc
    simpa [hf] using hcause

/-! ### What a command's effect leaves of STATUS (10_state.md R46) -/

@[simp] theorem commandEffect_fault (i : Instr) (r : Regs) :
    (commandEffect i r).status.fault = r.status.fault := by
  cases i <;> simp [commandEffect]

@[simp] theorem commandEffect_cause (i : Instr) (r : Regs) :
    (commandEffect i r).status.cause = r.status.cause := by
  cases i <;> simp [commandEffect]

theorem completePending_keeps_coherent {s t : State} (h : completePending s = .next t)
    (hb : s.regs.status.busy = true) (hc : s.regs.status.coherent = true) :
    t.regs.status.coherent = true := by
  rw [Status.coherent_iff] at hc ⊢
  obtain ⟨hbusy, -, hcause⟩ := hc
  obtain ⟨hdone, hfault⟩ := hbusy hb
  obtain ⟨c, hne, rfl⟩ | ⟨i, -, rfl⟩ := completePending_regs h
  · simp [hdone, hne]
  · simpa [hfault] using hcause

/-- Settles O54: a reset, a host write and a completion each keep STATUS coherent. -/
theorem stepKeepsStatusCoherent : Obligations.StepKeepsStatusCoherent := by
  intro s t hc h
  obtain hr | hr | ⟨off, v, hw⟩ | ⟨hb, hp⟩ := step_cases h
  · rw [hr]; exact Status.coherent_reset
  · rw [hr]; exact hc
  · rw [hw]; exact writeAt_keeps_coherent off v hc
  · exact completePending_keeps_coherent hp (by simpa using hb) (by simpa using hc)

/-! ### The ranges of a detection row (42_analyzer.md R161, 10_state.md R38) -/

theorem binomial_eq_choose {n w : Nat} (h : w ≤ n) : binomial n w = n.choose w :=
  (Nat.choose_eq_factorial_div_factorial h).symm

theorem length_tuplesFrom (p m w : Nat) : (tuplesFrom p m w).length = m.choose w := by
  induction p, m, w using tuplesFrom.induct with
  | case1 => simp [tuplesFrom]
  | case2 => simp [tuplesFrom]
  | case3 p m w ih₁ ih₂ => simp [tuplesFrom, ih₁, ih₂, Nat.choose_succ_succ]

theorem length_errorVectors (n w : Nat) : (errorVectors n w).length = n.choose w := by
  simp [errorVectors, length_tuplesFrom]

theorem detectedCount_le_choose (cw : Word) (n : Nat) (g : Word) (z w : Nat) :
    detectedCount cw n g z w ≤ n.choose w :=
  length_errorVectors n w ▸ List.countP_le_length

theorem choose_le_maxTotal {n : Nat} (h : n ≤ 32) (w : Nat) : n.choose w ≤ maxTotal :=
  calc n.choose w ≤ Nat.choose 32 w := Nat.choose_le_choose w h
    _ ≤ Nat.choose 32 16 := Nat.choose_le_middle w 32
    _ = maxTotal := by norm_num [maxTotal, Nat.choose]

/-- Rounding does not pass an integer bound of the quotient. -/
theorem rne_le_of_le_mul {p q b : Nat} (hq : 1 ≤ q) (h : p ≤ b * q) : rne p q ≤ b := by
  have hdiv : p / q ≤ b := Nat.div_le_of_le_mul (by rwa [Nat.mul_comm])
  have hup : p % q ≠ 0 → p / q + 1 ≤ b := by
    intro hr
    have := Nat.div_add_mod p q
    by_contra hlt
    obtain rfl : p / q = b := by omega
    rw [Nat.mul_comm q] at this
    omega
  unfold rne
  split_ifs <;> omega

theorem rate_le_10000 (cw : Word) {n : Nat} (g : Word) (z : Nat) {w : Nat} (hw : w ≤ n) :
    rne (detectedCount cw n g z w * 10000) (n.choose w) ≤ 10000 := by
  have := detectedCount_le_choose cw n g z w
  exact rne_le_of_le_mul (Nat.choose_pos hw) (by omega)

/-- No word of a detection row overflows 32 bits: TOTAL is at most C(32, 16). -/
theorem detectionRow_toNat (cw g : Word) {n : Nat} (z : Nat) {w : Nat} (hn : n ≤ 32) (hw : w ≤ n) :
    (detectionRow cw n g z w).weight.toNat = w ∧
      (detectionRow cw n g z w).total.toNat = n.choose w ∧
      (detectionRow cw n g z w).det.toNat = detectedCount cw n g z w ∧
      (detectionRow cw n g z w).rate.toNat =
        rne (detectedCount cw n g z w * 10000) (n.choose w) := by
  have htotal : n.choose w ≤ 601080390 := choose_le_maxTotal hn w
  have hdet := detectedCount_le_choose cw n g z w
  have hrate := rate_le_10000 cw g z hw
  simp only [detectionRow, binomial_eq_choose hw, BitVec.toNat_ofNat]
  refine ⟨?_, ?_, ?_, ?_⟩ <;> exact Nat.mod_eq_of_lt (by omega)

theorem detectionRow_inRange (cw g : Word) {n : Nat} (z : Nat) {w : Nat} (hn : n ≤ 32) (hw : w ≤ n) :
    (detectionRow cw n g z w).inRange w := by
  obtain ⟨hweight, htotal, hdet, hrate⟩ := detectionRow_toNat cw g z hn hw
  right
  rw [htotal, hdet, hrate]
  exact ⟨hweight, Nat.choose_pos hw, choose_le_maxTotal hn w, detectedCount_le_choose cw n g z w,
    rate_le_10000 cw g z hw⟩

/-! ### The report in range (10_state.md R38, R39) -/

/-- The report's ranges speak of ROWS and the rows alone. -/
theorem reportInRange_congr {r r' : Regs} (hrows : r'.rows = r.rows) (hrep : r'.report = r.report) :
    r'.reportInRange ↔ r.reportInRange := by
  simp [Regs.reportInRange, Regs.rowAt, hrows, hrep]

theorem rowAt_reset (w : Nat) : Regs.reset.rowAt w = Row.empty := by
  unfold Regs.rowAt
  split
  · rfl
  · by_cases h : w - 1 < 32 <;> simp [Regs.reset, h]

theorem reportInRange_reset : Regs.reset.reportInRange :=
  ⟨by decide, fun w _ _ => .inl (rowAt_reset w)⟩

/-- A host write resets the report or leaves it (70_reset_and_hazards.md R248). -/
theorem writeAt_report_cases (r : Regs) (off : Nat) (v : Word) :
    r.writeAt off v = Regs.reset ∨
      ((r.writeAt off v).rows = r.rows ∧ (r.writeAt off v).report = r.report) := by
  obtain h | h | h | h | h | ⟨_, ⟨_, h⟩ | h | h | h | h | h | h | h⟩ := writeAt_cases r off v <;>
    simp [h]

theorem setRow_keeps_reportInRange {r : Regs} {w : Nat} {row : Row} (h1 : 1 ≤ w) (h2 : w ≤ 32)
    (hrow : row.inRange w) (hr : r.reportInRange) : (r.setRow w row).reportInRange := by
  obtain ⟨hrows, hall⟩ := hr
  refine ⟨by simpa using hrows, fun v hv1 hv2 => ?_⟩
  by_cases hvw : v = w
  · rw [hvw, rowAt_setRow_same r row h1 h2]
    exact hrow
  · rw [rowAt_setRow_other r row hvw]
    exact hall v hv1 hv2

theorem reportInRange_of_fullReport {r : Regs} {cw g : Word} {n z : Nat} (hn : n ≤ 32)
    (hrows : r.rows = BitVec.ofNat 6 n) (hrep : r.report = fullReport cw n g z) : r.reportInRange := by
  refine ⟨?_, fun w h1 h2 => ?_⟩
  · rw [hrows, BitVec.toNat_ofNat]
    omega
  · have hrow : r.rowAt w = if w ≤ n then detectionRow cw n g z w else Row.empty := by
      rw [← rowAt_reportOf r (fun w => if w ≤ n then detectionRow cw n g z w else Row.empty) h1 h2]
      simp [Regs.rowAt, hrep, fullReport]
    rw [hrow]
    split
    · exact detectionRow_inRange cw g z hn ‹_›
    · exact .inl rfl

/-- Only ANALYZE_W, ANALYZE and RUN write the report, and their checks bound N and W. -/
theorem commandEffect_keeps_reportInRange {i : Instr} {r : Regs}
    (hchecks : ∀ x ∈ commandChecks i r, x.1 = true) (hr : r.reportInRange) :
    (commandEffect i r).reportInRange := by
  cases i with
  | analyzeW w =>
    simp only [commandChecks, List.forall_mem_cons, configOk_iff, Bool.and_eq_true,
      decide_eq_true_eq] at hchecks
    obtain ⟨-, ⟨-, hn, -⟩, ⟨h1, hw⟩, -⟩ := hchecks
    exact setRow_keeps_reportInRange h1 (hw.trans hn) (detectionRow_inRange _ _ _ hn hw) hr
  | analyze | run =>
    simp only [commandChecks, List.forall_mem_cons, configOk_iff] at hchecks
    obtain ⟨-, ⟨-, hn, -⟩, -⟩ := hchecks
    exact reportInRange_of_fullReport hn rfl rfl
  | nop | divrem _ | encode | check | enumFirst _ | enumNext => exact (reportInRange_congr rfl rfl).2 hr

theorem completePending_keeps_reportInRange {s t : State} (h : completePending s = .next t)
    (hr : s.regs.reportInRange) : t.regs.reportInRange := by
  obtain ⟨i, -, he⟩ | ⟨_, -, rfl⟩ := completePending_cases h
  · obtain ⟨c, -, -, rfl⟩ | ⟨hchecks, rfl⟩ := exec_cases he
    · exact (reportInRange_congr rfl rfl).2 hr
    · exact (reportInRange_congr rfl rfl).2 (commandEffect_keeps_reportInRange hchecks hr)
  · exact (reportInRange_congr rfl rfl).2 hr

/-- Settles O56: the report is written by completions alone, whose checks put every row in range. -/
theorem stepKeepsReportInRange : Obligations.StepKeepsReportInRange := by
  intro s t hr h
  obtain ht | ht | ⟨off, v, ht⟩ | ⟨-, hp⟩ := step_cases h
  · rw [ht]; exact reportInRange_reset
  · rw [ht]; exact hr
  · rw [ht]
    obtain hreset | ⟨hrows, hrep⟩ := writeAt_report_cases s.regs off v
    · rw [hreset]; exact reportInRange_reset
    · exact (reportInRange_congr hrows hrep).2 hr
  · exact completePending_keeps_reportInRange hp (by simpa using hr)

end Sys2Proof.Machine
end

section
/-! SUPPORT. The registers over the host port: what a read answers and what a write leaves, register by
register (10_state.md R24, R25, R34 to R37, R46 to R49), and the values after reset (R51). -/

namespace Sys2Proof.Machine

open Sys2Proof.Claims

/-! ### The commands' write sets (10_state.md R46) -/

/-- Every register but STATUS reads the same whatever STATUS holds. -/
theorem peek_congr_status (r : Regs) (f : Status) {g : Reg} (hg : g ≠ .status) :
    Regs.peek { r with status := f } g = r.peek g := by
  cases g with
  | status => exact absurd rfl hg
  | _ => rfl

theorem peek_complete (r : Regs) {g : Reg} (hg : g ≠ .status) : r.complete.peek g = r.peek g :=
  peek_congr_status r _ hg

theorem peek_dropWrite (r : Regs) {g : Reg} (hg : g ≠ .status) : r.dropWrite.peek g = r.peek g :=
  peek_congr_status r _ hg

theorem peek_setRow (r : Regs) {w : Nat} (row : Row) {g : Reg} (hg : ∀ f, g ≠ .row w f) :
    (r.setRow w row).peek g = r.peek g := by
  cases g with
  | row v f =>
    have hne : v ≠ w := fun h => hg f (h ▸ rfl)
    simp [Regs.peek, rowAt_setRow_other r row hne]
  | _ => simp [Regs.peek, Regs.infoLength, Regs.codeLength, Regs.degree]

/-- A command's effect leaves every register outside its write set. -/
theorem peek_commandEffect {i : Instr} (r : Regs) {g : Reg} (hg : g ≠ .status)
    (hw : writeSet i g = false) : (commandEffect i r).peek g = r.peek g := by
  cases i with
  | nop => rfl
  | analyzeW w =>
    refine peek_setRow r _ fun f h => ?_
    simp [h, writeSet] at hw
  | divrem _ | encode | check | enumFirst _ | enumNext | analyze | run =>
    cases g <;> simp [writeSet] at hw hg <;> rfl

theorem commandEffect_errdet {i : Instr} (r : Regs) (hi : i ≠ .check) :
    (commandEffect i r).status.errdet = r.status.errdet := by
  cases i <;> simp_all [commandEffect]

theorem commandEffect_enumValid {i : Instr} (r : Regs) (hnext : i ≠ .enumNext)
    (hfirst : ∀ w, i ≠ .enumFirst w) : (commandEffect i r).status.enumValid = r.status.enumValid := by
  cases i <;> simp_all [commandEffect]

@[simp] theorem commandEffect_werr (i : Instr) (r : Regs) :
    (commandEffect i r).status.werr = r.status.werr := by
  cases i <;> simp [commandEffect]

@[simp] theorem commandEffect_pend (i : Instr) (r : Regs) : (commandEffect i r).pend = r.pend := by
  cases i <;> simp [commandEffect]

/-- The model's fault entry is the statements' one. -/
theorem takeFault_eq_faultedWith (s : State) (c : Cause) : s.takeFault c = faultedWith s c := rfl

/-- Settles O34: a command faults, or has its effect and completes. -/
theorem commandsWriteOnlyTheirWriteSet : Obligations.CommandsWriteOnlyTheirWriteSet := by
  refine ⟨fun i s t h => ?_, fun s e he => ?_⟩
  · obtain ⟨hhost, hsched, hrounds, hdraws⟩ := exec_outside h
    obtain ⟨c, -, hc, rfl⟩ | ⟨-, rfl⟩ := exec_cases h
    · exact .inl ⟨c, hc, rfl⟩
    · refine .inr ⟨rfl, rfl, fun g hg hw => ?_, commandEffect_errdet s.regs,
        commandEffect_enumValid s.regs, commandEffect_werr i _, commandEffect_fault i _,
        commandEffect_cause i _, commandEffect_pend i _, hhost, hsched, hrounds, hdraws⟩
      exact (peek_complete _ hg).trans (peek_commandEffect s.regs hg hw)
  · simp [completePending, he, takeFault_eq_faultedWith]

/-! ### The register at an offset (10_state.md R20, R49) -/

theorem readAt_offset (r : Regs) (fresh : Word) {g : Reg} (hg : g.wellFormed = true) :
    r.readAt fresh g.offset = r.readReg fresh g := by
  simp [Regs.readAt, regAt_offset hg]

theorem writeAt_offset (r : Regs) (v : Word) {g : Reg} (hg : g.wellFormed = true) :
    r.writeAt g.offset v = r.writeReg v g := by
  simp [Regs.writeAt, regAt_offset hg]

/-- The report's map alone answers for the offsets from 0x040 on. -/
theorem regAt_of_le {off : Nat} (h : 0x040 ≤ off) : regAt off = rowRegAt off := by
  unfold regAt
  split
  case h_16 => rfl
  all_goals omega

theorem regAt_reserved {off : Nat} (h : reservedOffset off) : regAt off = none := by
  obtain rfl | ⟨h1, h2⟩ | ⟨h1, h2⟩ := h
  · rfl
  · rw [regAt_of_le h1, rowRegAt, if_neg (by omega)]
  · rw [regAt_of_le (by omega), rowRegAt, if_neg (by omega)]

theorem readAt_reserved (r : Regs) (fresh : Word) {off : Nat} (h : reservedOffset off) :
    r.readAt fresh off = 0 := by
  simp [Regs.readAt, regAt_reserved h]

theorem writeAt_reserved (r : Regs) (v : Word) {off : Nat} (h : reservedOffset off) :
    r.writeAt off v = r := by
  simp [Regs.writeAt, regAt_reserved h]

theorem writeAt_readOnly (r : Regs) (v : Word) {off : Nat}
    (h : off ∈ readOnlyOffsets ∨ (0x110 ≤ off ∧ off < 0x310)) : r.writeAt off v = r := by
  obtain h | ⟨h1, h2⟩ := h
  · simp only [readOnlyOffsets, List.mem_cons, List.not_mem_nil, or_false] at h
    obtain rfl | rfl | rfl | rfl | rfl := h <;> rfl
  · rw [Regs.writeAt, regAt_of_le (by omega), rowRegAt, if_pos ⟨h1, h2⟩]
    cases rowWordAt (off % 0x10) <;> rfl

/-- Settles O39: a reserved offset names no register, and a read-only register keeps its value. -/
theorem reservedAndReadOnlyOffsets : Obligations.ReservedAndReadOnlyOffsets := by
  refine ⟨fun r v fresh off _ h => ⟨readAt_reserved r fresh h, writeAt_reserved r v h⟩,
    fun s v off ha h => ?_⟩
  have hoff : off < 0x400 := by
    simp only [readOnlyOffsets, List.mem_cons, List.not_mem_nil, or_false] at h
    omega
  rw [busAccess_accepted _ s hoff ha]
  simp [State.accessAt, State.hostWrite, State.withRegs, writeAt_readOnly s.regs v h]

/-! ### Writes during the BUSY interval (10_state.md R48) -/

theorem writeAt_dropped {r : Regs} (v : Word) {off : Nat} (hb : r.status.busy = true)
    (h : off ∈ droppedOffsets) : r.writeAt off v = r.dropWrite := by
  simp only [droppedOffsets, List.mem_cons, List.not_mem_nil, or_false] at h
  obtain rfl | rfl | rfl | rfl | rfl | rfl | rfl | rfl := h <;>
    simp [Regs.writeAt, regAt, Regs.writeReg, Regs.issue, Regs.unlessBusy, hb]

theorem writeAt_ctrl (r : Regs) (v : Word) : r.writeAt 0x000 v = r.writeCtrl v := rfl

theorem writeCtrl_of_set (r : Regs) {v : Word} (h : v.getLsbD 1 = true) :
    r.writeCtrl v = Regs.reset := by
  simp only [Regs.writeCtrl, h, if_true]

theorem writeCtrl_of_clear (r : Regs) {v : Word} (h : v.getLsbD 1 = false) :
    r.writeCtrl v = { r with ie := v.getLsbD 0 } := by
  simp only [Regs.writeCtrl, h, Bool.false_eq_true, if_false]

theorem blockReset_reset : blockReset Regs.reset := by
  refine ⟨rfl, rfl, rfl, rfl, rfl, rfl, rfl, rfl, rfl, rfl, rfl, rfl, rfl, rfl, rfl, rfl, rfl, rfl, rfl,
    rfl, fun w f _ _ => ?_, rfl⟩
  rw [Regs.peek, rowAt_reset]
  cases f <;> rfl

/-- Settles O38: a dropped write sets WERR alone, and CTRL and STATUS are written as ever. -/
theorem busyWritesAreDropped : Obligations.BusyWritesAreDropped := by
  intro r v hb
  refine ⟨fun off h g hg => ?_, fun off h => ?_, fun h => ?_, fun h => ?_, fun h => ?_, fun off h => ?_⟩
  · rw [writeAt_dropped v hb h, peek_dropWrite r hg]
  · rw [writeAt_dropped v hb h]
    exact ⟨rfl, rfl⟩
  · rw [writeAt_ctrl, writeCtrl_of_clear r h]
  · rw [writeAt_ctrl, writeCtrl_of_set r h]
    exact blockReset_reset
  · exact if_pos h
  · obtain h | h | h := h
    · exact writeAt_readOnly r v (.inl h)
    · exact writeAt_readOnly r v (.inr h)
    · exact writeAt_reserved r v h

/-- Settles O59: while BUSY = 1 a step that is no completion can write IE, DONE and WERR alone. -/
theorem operandsHoldWhilePending : Obligations.OperandsHoldWhilePending := by
  intro s t h hs ht
  obtain hr | hr | ⟨off, v, hw⟩ | ⟨-, hp⟩ := step_cases h
  · simp [hr, Regs.reset, Status.reset] at ht
  · simp [hr]
  · obtain h | h | h | h | h | ⟨hidle, -⟩ := writeAt_cases s.regs off v
    · simp [hw, h]
    · simp [hw, h]
    · simp [hw, h, Regs.reset, Status.reset] at ht
    · simp [hw, h]
    · simp [hw, h]
    · simp [hs] at hidle
  · obtain ⟨_, -, rfl⟩ | ⟨_, -, rfl⟩ := completePending_regs hp <;> simp at ht

/-! ### An accepted write of CFG_N (10_state.md R36, 70_reset_and_hazards.md R249) -/

theorem hostWrite_cfgN {s : State} (v : Word) (hb : s.regs.status.busy = false) :
    (s.hostWrite 0x018 v).regs = s.regs.writeCfgN v := by
  refine (writeAt_offset s.regs v (g := .cfgN) rfl).trans ?_
  simp [Regs.writeReg, Regs.unlessBusy, hb]

theorem exec_enumNext_of_badConfig {s : State} (h : s.regs.configOk = false) :
    exec .enumNext s = .next (s.takeFault .badConfig) := by
  rw [exec_eq_checked, checked_of_fail]
  simp [commandChecks, h]

theorem exec_enumNext_of_enumInvalid {s : State} (h : s.regs.configOk = true)
    (hv : s.regs.status.enumValid = false) : exec .enumNext s = .next (s.takeFault .enumState) := by
  rw [exec_eq_checked, checked_of_fail]
  simp [commandChecks, h, hv]

/-- Settles O22: CfgOK is checked first, and the write has cleared ENUM_VALID. -/
theorem configWriteEndsEnumeration : Obligations.ConfigWriteEndsEnumeration := by
  rintro s u v hb rfl
  have hv : (s.hostWrite 0x018 v).regs.status.enumValid = false := by rw [hostWrite_cfgN v hb]; rfl
  refine ⟨fun h => ?_, fun h => ?_⟩
  · exact exec_enumNext_of_enumInvalid ((configOk_iff _).2 h) hv
  · exact exec_enumNext_of_badConfig (Bool.eq_false_iff.2 fun hok => h ((configOk_iff _).1 hok))

/-! ### Reset (10_state.md R51) -/

/-- Settles O50: the registers of `State.reset` are `Regs.reset`. -/
theorem resetValues : Obligations.ResetValues := ⟨blockReset_reset, rfl⟩

/-- Settles O53: STATUS is 0, no enumeration is live and every row is empty. -/
theorem resetMeetsTheInvariants : Obligations.ResetMeetsTheInvariants :=
  ⟨Status.coherent_reset, rfl, reportInRange_reset⟩

end Sys2Proof.Machine
end

section
/-! SUPPORT. What a read of the window answers: the current value, the draws of the BUSY interval
(10_state.md R47), the bits of STATUS (R25), and read after write (R34 to R36, R40 to R43). -/

namespace Sys2Proof.Machine

open Sys2Proof.Claims

/-! ### Drawn bits (10_state.md R47) -/

theorem readReg_of_drawnBits_eq_zero {r : Regs} (fresh : Word) {g : Reg} (h : r.drawnBits g = 0) :
    r.readReg fresh g = r.peek g := by
  have hz : r.drawnBits g = 0#32 := h
  rw [Regs.readReg, hz, BitVec.not_zero, BitVec.and_allOnes, BitVec.and_zero, BitVec.or_zero]

/-- A bit of a read is the drawn word's where the pending command writes it, and else the current one. -/
theorem readReg_getLsbD (r : Regs) (fresh : Word) (g : Reg) (j : Nat) :
    (r.readReg fresh g).getLsbD j =
      if (r.drawnBits g).getLsbD j then fresh.getLsbD j else (r.peek g).getLsbD j := by
  by_cases hj : j < 32
  · cases h : (r.drawnBits g).getLsbD j <;>
      simp only [Regs.readReg, BitVec.getLsbD_or, BitVec.getLsbD_and, BitVec.getLsbD_not, h, hj] <;> simp
  · simp only [BitVec.getLsbD_of_ge _ j (Nat.le_of_not_lt hj), ite_self]

theorem drawnBits_of_idle {r : Regs} (g : Reg) (hb : r.status.busy = false) : r.drawnBits g = 0 := by
  simp [Regs.drawnBits, hb]

theorem drawnBits_of_pending {r : Regs} {i : Instr} {g : Reg} (hb : r.status.busy = true)
    (hi : decode r.pend = .ok i) (hg : g ≠ .status) :
    r.drawnBits g = if writeSet i g then BitVec.allOnes 32 else 0 := by
  simp [Regs.drawnBits, hb, hi, hg]

theorem drawnBits_outside_writeSet {r : Regs} {g : Reg} (hg : g ≠ .status)
    (h : ∀ i, decode r.pend = .ok i → writeSet i g = false) : r.drawnBits g = 0 := by
  unfold Regs.drawnBits
  split
  · split
    · rename_i i hi
      simp only [h i hi, Bool.false_eq_true, if_false]
    · rfl
  · rfl

theorem readReg_of_idle {r : Regs} (fresh : Word) (g : Reg) (hb : r.status.busy = false) :
    r.readReg fresh g = r.peek g :=
  readReg_of_drawnBits_eq_zero fresh (drawnBits_of_idle g hb)

/-- No command writes CTRL or K_VIEW, so they always read their current value. -/
theorem readAt_ctrl (r : Regs) (fresh : Word) : r.readAt fresh 0x000 = r.peek .ctrl :=
  readReg_of_drawnBits_eq_zero fresh
    (drawnBits_outside_writeSet (by decide) fun i _ => by cases i <;> rfl)

theorem readAt_kView (r : Regs) (fresh : Word) : r.readAt fresh 0x01C = r.peek .kView :=
  readReg_of_drawnBits_eq_zero fresh
    (drawnBits_outside_writeSet (by decide) fun i _ => by cases i <;> rfl)

/-! ### The bits of STATUS (10_state.md R25) -/

/-- STATUS, bit by bit: bits 7 to 0. -/
theorem toWord_bits (f : Status) :
    f.toWord.getLsbD 0 = f.busy ∧ f.toWord.getLsbD 1 = f.done ∧ f.toWord.getLsbD 2 = f.fault ∧
      f.toWord.getLsbD 3 = f.errdet ∧ f.toWord.getLsbD 4 = f.enumValid ∧ f.toWord.getLsbD 5 = f.werr ∧
      f.toWord.getLsbD 6 = false ∧ f.toWord.getLsbD 7 = false := by
  refine ⟨?_, ?_, ?_, ?_, ?_, ?_, ?_, ?_⟩ <;>
    refine BitVec.getLsbD_append.trans ?_ <;>
    simp only [BitVec.getLsbD_append, BitVec.getLsbD_ofBool, BitVec.getLsbD_zero] <;> simp

/-- STATUS, bit by bit: CAUSE from bit 8 on, and 0 above it. -/
theorem toWord_getLsbD_add_eight (f : Status) (k : Nat) :
    f.toWord.getLsbD (8 + k) = f.cause.code.getLsbD k := by
  refine BitVec.getLsbD_append.trans ?_
  simp only [BitVec.getLsbD_append, BitVec.getLsbD_ofBool, BitVec.getLsbD_zero]
  rw [Nat.add_comm]
  simpa using BitVec.lt_of_getLsbD

theorem toWord_cause (f : Status) : f.toWord.extractLsb' 8 4 = f.cause.code := by
  apply BitVec.eq_of_getLsbD_eq
  intro j hj
  rw [BitVec.getLsbD_extractLsb', toWord_getLsbD_add_eight]
  simp [hj]

theorem toWord_reserved (f : Status) :
    f.toWord.extractLsb' 6 2 = 0 ∧ f.toWord.extractLsb' 12 20 = 0 := by
  constructor <;> apply BitVec.eq_of_getLsbD_eq <;> intro j hj <;> rw [BitVec.getLsbD_extractLsb']
  · obtain ⟨-, -, -, -, -, -, h6, h7⟩ := toWord_bits f
    interval_cases j <;> simp only [h6, h7] <;> rfl
  · have h : f.toWord.getLsbD (12 + j) = false := by
      rw [show 12 + j = 8 + (4 + j) by omega, toWord_getLsbD_add_eight, BitVec.getLsbD_of_ge _ _ (by omega)]
    simp [h]

theorem readAt_status_of_idle {r : Regs} (fresh : Word) (hb : r.status.busy = false) :
    r.readAt fresh 0x004 = r.status.toWord :=
  readReg_of_idle fresh .status hb

/-- Settles O43: with BUSY = 0 nothing is drawn, so the fields are those of STATUS. -/
theorem statusReadsItsFields : Obligations.StatusReadsItsFields := by
  intro r fresh hb
  obtain ⟨h0, h1, h2, h3, h4, h5, -⟩ := toWord_bits r.status
  obtain ⟨hlow, hhigh⟩ := toWord_reserved r.status
  rw [readAt_status_of_idle fresh hb]
  exact ⟨toWord_cause r.status, h0.trans hb, h1, h2, h3, h4, h5, hlow, hhigh⟩

/-! ### Reads during the BUSY interval (10_state.md R47) -/

theorem writeSetStatus_getLsbD (i : Instr) (j : Nat) :
    (writeSetStatus i).getLsbD j = true ↔
      (j = 3 ∧ i = .check) ∨ (j = 4 ∧ (i = .enumNext ∨ ∃ w, i = .enumFirst w)) := by
  have hbit : ∀ b < 32, (1#32 <<< b).getLsbD j = true ↔ j = b := by
    intro b hb
    simp only [BitVec.getLsbD_shiftLeft, BitVec.getLsbD_one, Bool.and_eq_true, decide_eq_true_eq,
      Bool.not_eq_true', decide_eq_false_iff_not]
    omega
  cases i with
  | check => simpa [writeSetStatus, errdetBit] using hbit 3 (by decide)
  | enumFirst _ | enumNext => simpa [writeSetStatus, enumValidBit] using hbit 4 (by decide)
  | nop | divrem _ | encode | analyzeW _ | analyze | run => simp [writeSetStatus]

theorem drawnBits_status_getLsbD {r : Regs} (hb : r.status.busy = true) (j : Nat) :
    (r.drawnBits .status).getLsbD j = true ↔
      ∃ i, decode r.pend = .ok i ∧ (writeSetStatus i).getLsbD j = true := by
  cases h : decode r.pend <;> simp [Regs.drawnBits, hb, h]

theorem readAt_status_of_drawn {r : Regs} (fresh : Word) {i : Instr} {j : Nat}
    (hb : r.status.busy = true) (hi : decode r.pend = .ok i)
    (hj : (writeSetStatus i).getLsbD j = true) : (r.readAt fresh 0x004).getLsbD j = fresh.getLsbD j :=
  (readReg_getLsbD r fresh .status j).trans
    (if_pos ((drawnBits_status_getLsbD hb j).2 ⟨i, hi, hj⟩))

theorem readAt_status_of_not_drawn {r : Regs} (fresh : Word) {j : Nat} (hb : r.status.busy = true)
    (h : ∀ i, decode r.pend = .ok i → ¬ (writeSetStatus i).getLsbD j = true) :
    (r.readAt fresh 0x004).getLsbD j = r.status.toWord.getLsbD j := by
  refine (readReg_getLsbD r fresh .status j).trans (if_neg fun hd => ?_)
  obtain ⟨i, hi, hj⟩ := (drawnBits_status_getLsbD hb j).1 hd
  exact h i hi hj

/-- Of STATUS no bit but 3 and 4 is ever drawn. -/
theorem readAt_status_of_ne {r : Regs} (fresh : Word) {j : Nat} (hb : r.status.busy = true)
    (h3 : j ≠ 3) (h4 : j ≠ 4) : (r.readAt fresh 0x004).getLsbD j = r.status.toWord.getLsbD j :=
  readAt_status_of_not_drawn fresh hb fun i _ => by simp [writeSetStatus_getLsbD, h3, h4]

theorem readAt_of_drawn {r : Regs} (fresh : Word) {i : Instr} {g : Reg} (hb : r.status.busy = true)
    (hi : decode r.pend = .ok i) (hwf : g.wellFormed = true) (hg : g ≠ .status)
    (hw : writeSet i g = true) : r.readAt fresh g.offset = fresh := by
  have hall : r.drawnBits g = BitVec.allOnes 32 := by simp [drawnBits_of_pending hb hi hg, hw]
  rw [readAt_offset r fresh hwf, Regs.readReg, hall, BitVec.not_allOnes, BitVec.and_allOnes,
    BitVec.and_zero, BitVec.zero_or]

/-- With a coherent STATUS a read during the BUSY interval shows BUSY alone of bits 2 to 0. -/
theorem readAt_status_low_bits {r : Regs} (fresh : Word) (hb : r.status.busy = true)
    (hd : r.status.done = false) (hf : r.status.fault = false) :
    (r.readAt fresh 0x004).extractLsb' 0 3 = 1 := by
  obtain ⟨h0, h1, h2, -⟩ := toWord_bits r.status
  apply BitVec.eq_of_getLsbD_eq
  intro j hj
  rw [BitVec.getLsbD_extractLsb', readAt_status_of_ne fresh hb (by omega) (by omega)]
  interval_cases j <;> simp only [Nat.zero_add, h0, h1, h2, hb, hd, hf] <;> rfl

theorem readAt_status_cause {r : Regs} (fresh : Word) (hb : r.status.busy = true) :
    (r.readAt fresh 0x004).extractLsb' 8 4 = r.status.cause.code := by
  rw [← toWord_cause]
  apply BitVec.eq_of_getLsbD_eq
  intro j hj
  rw [BitVec.getLsbD_extractLsb', BitVec.getLsbD_extractLsb',
    readAt_status_of_ne fresh hb (by omega) (by omega)]

/-- Settles O45: a read shows the drawn word on the drawn bits and the current value on the others. -/
theorem busyReadsAreDraws : Obligations.BusyReadsAreDraws := by
  intro r fresh hb
  obtain ⟨-, -, -, h3, h4, -⟩ := toWord_bits r.status
  refine ⟨fun i g hi hwf hg hw => readAt_of_drawn fresh hb hi hwf hg hw, fun g hwf hg h => ?_,
    fun j _ hj3 hj4 => readAt_status_of_ne fresh hb hj3 hj4, ?_, fun h => ?_, fun hnext hfirst => ?_,
    fun hc => ?_⟩
  · rw [readAt_offset r fresh hwf]
    exact readReg_of_drawnBits_eq_zero fresh (drawnBits_outside_writeSet hg h)
  · by_cases hpend : decode r.pend = .ok .check
    · rw [if_pos hpend]
      exact readAt_status_of_drawn fresh hb hpend (by decide)
    · rw [if_neg hpend, ← h3]
      refine readAt_status_of_not_drawn fresh hb fun i hi => ?_
      have hcheck : i ≠ .check := fun h => hpend (h ▸ hi)
      rw [writeSetStatus_getLsbD]
      simp [hcheck]
  · obtain h | ⟨w, h⟩ := h
    · exact readAt_status_of_drawn fresh hb h (by decide)
    · refine readAt_status_of_drawn fresh hb h ?_
      exact (writeSetStatus_getLsbD _ _).2 (.inr ⟨rfl, .inr ⟨w, rfl⟩⟩)
  · rw [← h4]
    refine readAt_status_of_not_drawn fresh hb fun i hi => ?_
    have hi1 : i ≠ .enumNext := fun h => hnext (h ▸ hi)
    have hi2 : ∀ w, i ≠ .enumFirst w := fun w h => hfirst w (h ▸ hi)
    rw [writeSetStatus_getLsbD]
    simp [hi1, hi2]
  · obtain ⟨hbusy, -, hcause⟩ := (Status.coherent_iff _).1 hc
    obtain ⟨hd, hf⟩ := hbusy hb
    have hnone : r.status.cause = .none := by simpa [hf] using hcause
    rw [readAt_status_cause fresh hb, hnone]
    exact ⟨readAt_status_low_bits fresh hb hd hf, rfl⟩

/-! ### Read after write (10_state.md R34 to R36, R40 to R43) -/

/-- The operand and configuration registers. -/
def dataRegs : List Reg := [.gpoly, .gdeg, .cfgN, .info, .cw, .rx, .divd]

theorem writeReg_keeps_busy {r : Regs} (v : Word) {g : Reg} (hb : r.status.busy = false)
    (hg : g ∈ dataRegs) : (r.writeReg v g).status.busy = false := by
  simp only [dataRegs, List.mem_cons, List.not_mem_nil, or_false] at hg
  obtain rfl | rfl | rfl | rfl | rfl | rfl | rfl := hg <;> simp [Regs.writeReg, Regs.unlessBusy, hb]

/-- A write to an operand or configuration register leaves what the others read, except for STATUS
(ENUM_VALID) and K_VIEW. -/
theorem peek_writeReg_other {r : Regs} (v : Word) {g g' : Reg} (hb : r.status.busy = false)
    (hg : g ∈ dataRegs) (hne : g' ≠ g) (hs : g' ≠ .status) (hk : g' ≠ .kView) :
    (r.writeReg v g).peek g' = r.peek g' := by
  simp only [dataRegs, List.mem_cons, List.not_mem_nil, or_false] at hg
  obtain rfl | rfl | rfl | rfl | rfl | rfl | rfl := hg <;>
    simp only [Regs.writeReg, Regs.unlessBusy, hb, Bool.false_eq_true, if_false] <;>
    cases g' <;> simp at hne hs hk <;> rfl

/-- The registers of 32 used bits read back the word written. -/
theorem peek_writeReg_word {r : Regs} (v : Word) {g : Reg} (hb : r.status.busy = false)
    (hg : g ∈ [Reg.gpoly, .info, .cw, .rx, .divd]) : (r.writeReg v g).peek g = v := by
  simp only [List.mem_cons, List.not_mem_nil, or_false] at hg
  obtain rfl | rfl | rfl | rfl | rfl := hg <;> simp [Regs.writeReg, Regs.unlessBusy, hb, Regs.peek]

/-- Holding the low `k` bits of a word is masking them. -/
theorem setWidth_setWidth_eq_and (v : Word) {k : Nat} (hk : k ≤ 32) :
    (v.setWidth k).setWidth 32 = v &&& BitVec.ofNat 32 (2 ^ k - 1) := by
  have hpow : 2 ^ k ≤ 2 ^ 32 := Nat.pow_le_pow_right (by decide) hk
  apply BitVec.eq_of_toNat_eq
  have hmod : v.toNat % 2 ^ k < 2 ^ k := Nat.mod_lt _ (by positivity)
  rw [BitVec.toNat_and, BitVec.toNat_setWidth, BitVec.toNat_setWidth, BitVec.toNat_ofNat,
    Nat.mod_eq_of_lt (by omega : 2 ^ k - 1 < 2 ^ 32), Nat.and_two_pow_sub_one_eq_mod]
  exact Nat.mod_eq_of_lt (hmod.trans_le hpow)

theorem readAt_writeAt_of_idle {r : Regs} (v fresh : Word) {g g' : Reg} (hb : r.status.busy = false)
    (hg : g ∈ dataRegs) (hwf : g.wellFormed = true) (hwf' : g'.wellFormed = true) :
    (r.writeAt g.offset v).readAt fresh g'.offset = (r.writeReg v g).peek g' := by
  rw [writeAt_offset r v hwf, readAt_offset _ fresh hwf',
    readReg_of_idle fresh g' (writeReg_keeps_busy v hb hg)]

/-- Settles O40: the write leaves BUSY = 0, so a read answers the current value. -/
theorem windowReadAfterWrite : Obligations.WindowReadAfterWrite := by
  intro r v fresh hb
  have hwf : ∀ g ∈ dataRegs, g.wellFormed = true := by decide
  have hread : ∀ g ∈ dataRegs, (r.writeAt g.offset v).readAt fresh g.offset = (r.writeReg v g).peek g :=
    fun g hg => readAt_writeAt_of_idle v fresh hb hg (hwf g hg) (hwf g hg)
  refine ⟨fun g hg => ?_, ?_, ?_, fun g hg g' hwf' hne hs hk => ?_⟩
  · have hdata : g ∈ dataRegs := by
      revert g
      decide
    rw [hread g hdata]
    exact peek_writeReg_word v hb hg
  · refine (hread .gdeg (by decide)).trans ?_
    simp only [Regs.writeReg, Regs.unlessBusy, hb, Bool.false_eq_true, if_false]
    exact setWidth_setWidth_eq_and v (by decide)
  · refine (hread .cfgN (by decide)).trans ?_
    simp only [Regs.writeReg, Regs.unlessBusy, hb, Bool.false_eq_true, if_false]
    exact setWidth_setWidth_eq_and v (by decide)
  · rw [readAt_writeAt_of_idle v fresh hb hg (hwf g hg) hwf', readAt_offset r fresh hwf',
      readReg_of_idle fresh g' hb, peek_writeReg_other v hb hg hne hs hk]

/-! ### CTRL and K_VIEW (10_state.md R24, R37) -/

/-- Settles O41: CTRL is never drawn and holds IE alone. -/
theorem ctrlReadsItsEnableBit : Obligations.CtrlReadsItsEnableBit := by
  intro r v fresh
  simp only [readAt_ctrl, writeAt_ctrl]
  refine ⟨fun h => ?_, fun h => ?_, ?_⟩
  · rw [writeCtrl_of_clear r h, BitVec.and_one_eq_setWidth_ofBool_getLsbD, Regs.peek]
  · rw [writeCtrl_of_set r h]
    rfl
  · rw [Regs.peek]
    cases r.ie
    · exact .inl rfl
    · exact .inr rfl

theorem infoLength_lt (r : Regs) : r.infoLength < 64 :=
  Nat.lt_of_le_of_lt (Nat.sub_le _ _) r.cfgN.isLt

/-- Settles O42: K_VIEW is never drawn, and N - Z fits in 32 bits. -/
theorem kViewFollowsConfiguration : Obligations.KViewFollowsConfiguration := by
  refine ⟨fun r fresh => ?_, fun fresh => ?_⟩
  · have hlt := infoLength_lt r
    rw [readAt_kView, Regs.peek]
    refine ⟨fun _ => ?_, fun h => ?_⟩
    · exact BitVec.toNat_ofNat .. |>.trans (Nat.mod_eq_of_lt (by omega))
    · have hzero : r.infoLength = 0 := Nat.sub_eq_zero_of_le h
      rw [hzero]
      rfl
  · rw [readAt_kView]
    rfl

end Sys2Proof.Machine
end

section
/-! SUPPORT. The host bus (20_memory.md): the byte lanes of a word (R63), the access forms
the window accepts (R60 to R62), and reads without side effects (R65). -/

namespace Sys2Proof

/-! ### Byte lanes (20_memory.md R63) -/

theorem byteLane_getLsbD (v : Word) (b : Nat) {j : Nat} (hj : j < 8) :
    (byteLane v b).getLsbD j = v.getLsbD (8 * b + j) := by
  simp [byteLane, hj]

/-- The lanes lie one above the other from bit 0 on, so appending them gives the word back. -/
@[simp] theorem wordOfBytes_byteLanes (v : Word) :
    wordOfBytes (byteLane v 0) (byteLane v 1) (byteLane v 2) (byteLane v 3) = v := by
  have hlow : byteLane v 1 ++ byteLane v 0 = v.extractLsb' 0 16 :=
    BitVec.extractLsb'_append_extractLsb'_eq_extractLsb' rfl
  have hhigh : byteLane v 3 ++ byteLane v 2 = v.extractLsb' 16 16 :=
    BitVec.extractLsb'_append_extractLsb'_eq_extractLsb' rfl
  calc wordOfBytes (byteLane v 0) (byteLane v 1) (byteLane v 2) (byteLane v 3)
      = v.extractLsb' 16 16 ++ v.extractLsb' 0 16 := by rw [wordOfBytes, hlow, hhigh]
    _ = v.extractLsb' 0 32 := BitVec.extractLsb'_append_extractLsb'_eq_extractLsb' rfl
    _ = v := BitVec.extractLsb'_eq_self

/-- A byte image that begins with a word's lanes decodes as the word does. -/
theorem decodeBytes_bytesOfWord_append (v : Word) (rest : List Byte) :
    decodeBytes (bytesOfWord v ++ rest) = (decode v).map (·, rest) := by
  have himage : bytesOfWord v ++ rest =
      byteLane v 0 :: byteLane v 1 :: byteLane v 2 :: byteLane v 3 :: rest := rfl
  rw [himage, decodeBytes, wordOfBytes_byteLanes]
  cases decode v <;> rfl

/-- Settles O6: the four lanes append to the word, so the image decodes as the word. -/
theorem byteLanesAreLittleEndian : Obligations.ByteLanesAreLittleEndian := by
  intro v rest
  refine ⟨fun b j _ hj => byteLane_getLsbD v b hj, wordOfBytes_byteLanes v, fun i hi => ?_, fun e he => ?_⟩
  · rw [decodeBytes_bytesOfWord_append, hi]
    rfl
  · rw [decodeBytes_bytesOfWord_append, he]
    rfl

namespace Machine

/-! ### The accepted access form (20_memory.md R60 to R62) -/

@[simp] theorem acceptedForm_iff (off bits : Nat) :
    acceptedForm off bits = true ↔ bits = 32 ∧ off % 4 = 0 := by
  simp [acceptedForm]

theorem windowOffset_outside {base addr : Nat} (h : addr < base ∨ base + 0x400 ≤ addr) :
    windowOffset base addr = none :=
  if_neg (by omega)

theorem busAccess_refused_form {off bits : Nat} (op : BusOp) (s : State) (h : off < 0x400)
    (hform : bits ≠ 32 ∨ off % 4 ≠ 0) :
    busAccess { addr := Config.cycBase + off, bits := bits, op := op } s = .fault .busError := by
  have hrefused : ¬ acceptedForm off bits = true := by
    rw [acceptedForm_iff]
    omega
  simp only [busAccess, windowOffset_base_add _ h, if_neg hrefused]

theorem busAccess_outside {a : BusAccess} (s : State)
    (h : a.addr < Config.cycBase ∨ Config.cycBase + 0x400 ≤ a.addr) :
    busAccess a s = .fault .outsideWindow := by
  simp only [busAccess, windowOffset_outside h]

/-- Settles O46: the address places the access in the window or outside it, and inside it the width and
the alignment alone decide. -/
theorem onlyAlignedWordAccessesAreAccepted : Obligations.OnlyAlignedWordAccessesAreAccepted := by
  intro s op off bits hoff
  refine ⟨?_, busAccess_refused_form op s hoff, fun a ha => busAccess_outside s ha⟩
  rintro rfl ha
  exact busAccess_accepted op s hoff ha

/-! ### A read has no side effects (20_memory.md R65, 10_state.md R47) -/

/-- A read that draws no bit does not depend on the drawn word. -/
theorem readAt_of_drawnAt_eq_zero {r : Regs} {off : Nat} (h : r.drawnAt off = 0) (fresh fresh' : Word) :
    r.readAt fresh off = r.readAt fresh' off := by
  unfold Regs.drawnAt at h
  unfold Regs.readAt
  cases hreg : regAt off with
  | none => rfl
  | some g =>
    rw [hreg] at h
    exact (readReg_of_drawnBits_eq_zero fresh h).trans (readReg_of_drawnBits_eq_zero fresh' h).symm

theorem countDraw_of_not_drawn {s : State} {off : Nat} (h : s.regs.drawnAt off = 0) :
    s.countDraw off = s.draws :=
  if_pos h

theorem countDraw_of_drawn {s : State} {off : Nat} (h : s.regs.drawnAt off ≠ 0) :
    s.countDraw off = s.draws + 1 :=
  if_neg h

/-- Settles O44: a read leaves the registers, so what the next read answers differs in the drawn word
alone. -/
theorem readsHaveNoSideEffects : Obligations.ReadsHaveNoSideEffects := by
  intro s off
  refine ⟨s.hostRead_regs off, fun h => ⟨?_, countDraw_of_not_drawn h⟩, countDraw_of_drawn⟩
  rw [State.hostRead_host, State.hostRead_host, State.hostRead_regs]
  exact readAt_of_drawnAt_eq_zero h _ _

end Machine

end Sys2Proof
end

section
/-! SUPPORT. The command word (30_encoding.md): its fields determine it (R80), so the decoder and the
encoder are inverse to each other (R88) and agree with the rows of the opcode map (R81); the illegal words
(R83 to R85). -/

namespace Sys2Proof

/-! ### Fields and words (R80) -/

theorem fieldOp_eq_mod (v : Word) : fieldOp v = v.toNat % 2 ^ 8 := by
  simp [fieldOp, BitVec.extractLsb'_toNat]

theorem fieldArg_eq_div_mod (v : Word) : fieldArg v = v.toNat / 2 ^ 8 % 2 ^ 6 := by
  simp [fieldArg, BitVec.extractLsb'_toNat, Nat.shiftRight_eq_div_pow]

theorem fieldRsv_eq_div (v : Word) : fieldRsv v = v.toNat / 2 ^ 14 := by
  rw [fieldRsv, BitVec.extractLsb'_toNat, Nat.shiftRight_eq_div_pow]
  omega

theorem fieldArg_lt (v : Word) : fieldArg v < 64 := BitVec.isLt _

theorem fieldRsv_eq_zero_iff (v : Word) : fieldRsv v = 0 ↔ v.extractLsb' 14 18 = 0#18 :=
  BitVec.toNat_inj (y := 0#18)

theorem fieldArg_eq_zero_iff (v : Word) : fieldArg v = 0 ↔ v.extractLsb' 8 6 = 0#6 :=
  BitVec.toNat_inj (y := 0#6)

theorem commandWord_toNat {op arg : Nat} (hop : op < 256) (harg : arg < 64) :
    (commandWord op arg).toNat = 2 ^ 8 * arg + op := by
  have hshift : (BitVec.ofNat 32 arg <<< 8).toNat = 2 ^ 8 * arg := by
    rw [BitVec.toNat_shiftLeft, BitVec.toNat_ofNat, Nat.shiftLeft_eq]
    omega
  rw [commandWord, BitVec.toNat_or, hshift, BitVec.toNat_ofNat, Nat.mod_eq_of_lt (by omega), Nat.or_comm,
    Nat.two_pow_add_eq_or_of_lt hop]

/-- The three fields are the whole word. -/
theorem eq_commandWord_iff {v : Word} {op arg : Nat} (hop : op < 256) (harg : arg < 64) :
    v = commandWord op arg ↔ fieldRsv v = 0 ∧ fieldOp v = op ∧ fieldArg v = arg := by
  rw [← BitVec.toNat_inj, commandWord_toNat hop harg, fieldRsv_eq_div, fieldOp_eq_mod, fieldArg_eq_div_mod]
  omega

/-! ### The decoder by fields (R88) -/

theorem Instr.opcode_lt (i : Instr) : i.opcode < 256 := by
  cases i <;> simp [Instr.opcode]

theorem Instr.wellFormed_iff (i : Instr) : i.wellFormed = true ↔ i.argument < 64 := by
  cases i <;> simp [Instr.wellFormed, Instr.argument, argFits]

@[simp] theorem withoutArg_eq_ok_iff (arg : Nat) (i j : Instr) :
    withoutArg arg i = .ok j ↔ arg = 0 ∧ i = j := by
  by_cases h : arg = 0 <;> simp [withoutArg, h]

@[simp] theorem withoutArg_eq_error_iff (arg : Nat) (i : Instr) :
    (∃ e, withoutArg arg i = .error e) ↔ arg ≠ 0 := by
  by_cases h : arg = 0 <;> simp [withoutArg, h]

/-- The opcode map answers a command exactly for its opcode and its argument. -/
theorem decodeOp_eq_ok_iff (op arg : Nat) (i : Instr) :
    decodeOp op arg = .ok i ↔ op = i.opcode ∧ arg = i.argument := by
  constructor
  · unfold decodeOp
    split <;> intro h
    case h_10 => cases h
    case h_2 | h_5 | h_7 => cases h; exact ⟨rfl, rfl⟩
    all_goals obtain ⟨rfl, rfl⟩ := (withoutArg_eq_ok_iff _ _ _).1 h; exact ⟨rfl, rfl⟩
  · rintro ⟨rfl, rfl⟩
    cases i <;> rfl

theorem decode_eq_ok_iff_fields (v : Word) (i : Instr) :
    decode v = .ok i ↔ fieldRsv v = 0 ∧ fieldOp v = i.opcode ∧ fieldArg v = i.argument := by
  by_cases h : fieldRsv v = 0 <;> simp [decode, h, decodeOp_eq_ok_iff]

/-- A word decodes to the one command whose word it is. -/
theorem decode_eq_ok_iff (v : Word) (i : Instr) :
    decode v = .ok i ↔ i.wellFormed = true ∧ v = encode i := by
  rw [decode_eq_ok_iff_fields, Instr.wellFormed_iff]
  constructor
  · intro h
    have harg : i.argument < 64 := h.2.2 ▸ fieldArg_lt v
    exact ⟨harg, (eq_commandWord_iff i.opcode_lt harg).2 h⟩
  · rintro ⟨harg, hv⟩
    exact (eq_commandWord_iff i.opcode_lt harg).1 hv

/-- Settles O4: the command's word is a word of that command. -/
theorem decodeOfEncodeIsIdentity : Obligations.DecodeOfEncodeIsIdentity :=
  fun i h => (decode_eq_ok_iff (encode i) i).2 ⟨h, rfl⟩

/-- Settles O5: a word that decodes to a command is the command's word. -/
theorem encodeOfDecodeIsIdentity : Obligations.EncodeOfDecodeIsIdentity := by
  intro v i h
  obtain ⟨hwf, hv⟩ := (decode_eq_ok_iff v i).1 h
  exact ⟨hwf, hv.symm⟩

/-! ### The rows of the opcode map (R81) -/

/-- Under the mask of a row with an argument, a word keeps OP and RSV and loses ARG. -/
theorem fields_and_argMask (v : Word) :
    fieldRsv (v &&& 0xFFFFC0FF#32) = fieldRsv v ∧ fieldOp (v &&& 0xFFFFC0FF#32) = fieldOp v ∧
      fieldArg (v &&& 0xFFFFC0FF#32) = 0 := by
  have hrsv : (0xFFFFC0FF#32).extractLsb' 14 18 = BitVec.allOnes 18 := by decide
  have hop : (0xFFFFC0FF#32).extractLsb' 0 8 = BitVec.allOnes 8 := by decide
  have harg : (0xFFFFC0FF#32).extractLsb' 8 6 = 0#6 := by decide
  simp only [fieldRsv, fieldOp, fieldArg, BitVec.extractLsb'_and, hrsv, hop, harg, BitVec.and_allOnes,
    BitVec.and_zero, BitVec.toNat_zero, and_self]

/-- A row without an argument matches one word, the command's. -/
theorem decode_eq_ok_iff_match (v : Word) {i : Instr} (hwf : i.wellFormed = true) :
    decode v = .ok i ↔ v &&& 0xFFFFFFFF#32 = encode i := by
  have hmask : v &&& 0xFFFFFFFF#32 = v := BitVec.and_allOnes
  rw [decode_eq_ok_iff, hmask]
  exact and_iff_right hwf

/-- A row with an argument matches the words that differ in ARG alone. -/
theorem decode_eq_ok_iff_match_arg (v : Word) (i : Instr) :
    decode v = .ok i ↔ v &&& 0xFFFFC0FF#32 = BitVec.ofNat 32 i.opcode ∧ i.argument = fieldArg v := by
  obtain ⟨hrsv, hop, harg⟩ := fields_and_argMask v
  have hword : BitVec.ofNat 32 i.opcode = commandWord i.opcode 0 := by simp [commandWord]
  rw [decode_eq_ok_iff_fields, hword, eq_commandWord_iff i.opcode_lt (by decide), hrsv, hop, harg]
  simp only [and_true, and_assoc, eq_comm (a := i.argument)]

/-- Settles O2: row by row, with the mask of a row without an argument or of one with an argument. -/
theorem decodeAgreesWithOpcodeMap : Obligations.DecodeAgreesWithOpcodeMap := fun v =>
  ⟨decode_eq_ok_iff_match v rfl, fun n => decode_eq_ok_iff_match_arg v (.divrem n),
    decode_eq_ok_iff_match v rfl, decode_eq_ok_iff_match v rfl,
    fun n => decode_eq_ok_iff_match_arg v (.enumFirst n), decode_eq_ok_iff_match v rfl,
    fun n => decode_eq_ok_iff_match_arg v (.analyzeW n), decode_eq_ok_iff_match v rfl,
    decode_eq_ok_iff_match v rfl⟩

/-! ### Illegal words (R83 to R85) -/

/-- The opcode map refuses ARG on an opcode without an argument, and the reserved opcodes. -/
theorem decodeOp_eq_error_iff (op arg : Nat) :
    (∃ e, decodeOp op arg = .error e) ↔
      (op ∈ [0x00, 0x02, 0x03, 0x05, 0x07, 0x08] ∧ arg ≠ 0) ∨ 0x09 ≤ op := by
  by_cases hop : op < 9
  · interval_cases op <;> simp [decodeOp]
  · unfold decodeOp
    split
    case h_10 => simpa using .inr (by omega)
    all_goals omega

theorem decode_eq_error_iff (v : Word) :
    (∃ e, decode v = .error e) ↔
      fieldRsv v ≠ 0 ∨ (fieldOp v ∈ [0x00, 0x02, 0x03, 0x05, 0x07, 0x08] ∧ fieldArg v ≠ 0) ∨
        0x09 ≤ fieldOp v := by
  rw [← decodeOp_eq_error_iff]
  by_cases h : fieldRsv v = 0 <;> simp [decode, h]

/-- Settles O3: the illegal words are those the decoder refuses, and a refused word's completion looks at
nothing else. -/
theorem illegalWordsFaultIllegalCmd : Obligations.IllegalWordsFaultIllegalCmd := by
  intro s
  refine ⟨?_, fun ⟨e, he⟩ => Machine.commandsWriteOnlyTheirWriteSet.2 s e he⟩
  simp only [decode_eq_error_iff, ne_eq, fieldRsv_eq_zero_iff, fieldArg_eq_zero_iff, fieldOp]

namespace Machine

/-! ### The wait loop (R90) -/

/-- BUSY is never drawn. -/
theorem readAt_status_busy (r : Regs) (fresh : Word) :
    (r.readAt fresh 0x004).getLsbD 0 = r.status.busy := by
  rw [← (toWord_bits r.status).1]
  cases hb : r.status.busy with
  | false => rw [readAt_status_of_idle fresh hb]
  | true => exact readAt_status_of_ne fresh hb (by decide) (by decide)

theorem runStmt_asmRd {g : Reg} (s : State) (h : g.offset < 0x400) (ha : g.offset % 4 = 0) :
    runStmt (asmRd g) s = .next ((s.hostAt (s.host.pos + 1)).hostRead g.offset) :=
  busAccess_accepted .read _ h ha

/-- The condition of `wait` tests bit 0. -/
theorem condSet_one_test (v : Word) : (condSet 1).test v = v.getLsbD 0 := by
  have hmask : v &&& (1 : Word) = BitVec.setWidth 32 (BitVec.ofBool (v.getLsbD 0)) :=
    BitVec.and_one_eq_setWidth_ofBool_getLsbD
  rw [HostCond.test, condSet, hmask]
  cases v.getLsbD 0 <;> rfl

theorem runStmt_branch_not_taken {c : HostCond} {s : State} (l : Nat) (h : c.test s.host.last = false) :
    runStmt (.branch c l) s = .next (s.hostAt (s.host.pos + 1)) := by
  simp [runStmt, h]

theorem runStmt_branch_taken {c : HostCond} {s : State} {l p : Nat} (h : c.test s.host.last = true)
    (hp : labelPos s.host.prog l = some p) : runStmt (.branch c l) s = .next (s.hostAt p) := by
  simp [runStmt, h, hostGoto, hp]

/-- Settles O49: the read answers BUSY in bit 0, the bit that the branch tests. -/
theorem waitLoopsWhileBusy : Obligations.WaitLoopsWhileBusy := by
  intro s w
  refine ⟨⟨_, runStmt_asmRd s (by decide) (by decide), rfl, rfl, readAt_status_busy s.regs _⟩,
    fun h => ?_, fun h p hp => ?_⟩
  · exact runStmt_branch_not_taken w ((condSet_one_test _).trans h)
  · exact runStmt_branch_taken ((condSet_one_test _).trans h) hp

end Machine

end Sys2Proof
end

section
/-! SUPPORT. The polynomial over GF(2) that a register holds (00_scope.md R7), the remainder of the GF(2)
engine (40_gf2_engine.md R100, R101), and DIVREM (R102). -/

namespace Sys2Proof.Claims

open Polynomial

/-! ### Clear bits and well-formed generators as the model checks them (00_scope.md R6, R8) -/

theorem clearFrom_iff (v : Word) (n : Nat) : clearFrom v n ↔ ∀ j, n ≤ j → v.getLsbD j = false := by
  refine ⟨fun h j hj => ?_, fun h j _ => h j⟩
  by_cases hlt : j < 32
  · exact h j hlt hj
  · exact BitVec.getLsbD_of_ge v j (by omega)

theorem clearFrom_zero_iff (v : Word) : clearFrom v 0 ↔ v = 0 :=
  ⟨fun h => BitVec.eq_of_getLsbD_eq fun j hj => by simpa using h j hj (Nat.zero_le j),
    fun h _ _ _ => h ▸ BitVec.getLsbD_zero⟩

theorem clearFrom.mono {v : Word} {m n : Nat} (h : clearFrom v m) (hmn : m ≤ n) : clearFrom v n :=
  fun j hj hn => h j hj (hmn.trans hn)

theorem clearFrom.xor {v w : Word} {n : Nat} (hv : clearFrom v n) (hw : clearFrom w n) :
    clearFrom (v ^^^ w) n := fun j hj hn => by
  rw [BitVec.getLsbD_xor, hv j hj hn, hw j hj hn, Bool.xor_false]

theorem noBitFrom_iff_clearFrom (v : Word) (n : Nat) : Machine.noBitFrom v n = true ↔ clearFrom v n :=
  (Machine.noBitFrom_iff v n).trans (clearFrom_iff v n).symm

theorem generatorWellFormed_iff (g : Word) (z : Nat) :
    generatorWellFormed g z ↔ g.getLsbD z = true ∧ clearFrom g (z + 1) := Iff.rfl

theorem generatorOk_iff_gOk (r : Machine.Regs) : r.generatorOk = true ↔ gOk r := by
  rw [gOk, generatorWellFormed_iff, clearFrom_iff]
  exact Machine.generatorOk_iff r

theorem configOk_iff_cOk (r : Machine.Regs) : r.configOk = true ↔ cOk r := Machine.configOk_iff r

/-! ### The polynomial of a word (00_scope.md R7) -/

@[simp] theorem coeff_polyOf (v : Word) (j : Nat) :
    (polyOf v).coeff j = if v.getLsbD j then 1 else 0 := by
  have hterm (i : Nat) : (if v.getLsbD i then (X : (ZMod 2)[X]) ^ i else 0).coeff j =
      if j = i then (if v.getLsbD j then 1 else 0) else 0 := by
    by_cases hi : j = i
    · subst hi; cases v.getLsbD j <;> simp
    · cases v.getLsbD i <;> simp [coeff_X_pow, hi]
  rw [polyOf, finsetSum_coeff, Finset.sum_congr rfl fun i _ => hterm i, Finset.sum_ite_eq]
  by_cases hj : j < 32
  · simp [hj]
  · simp [hj, BitVec.getLsbD_of_ge v j (by omega)]

theorem polyOf_injective : Function.Injective polyOf := by
  intro v w h
  refine BitVec.eq_of_getLsbD_eq fun j _ => ?_
  have hj := congrArg (coeff · j) h
  cases hv : v.getLsbD j <;> cases hw : w.getLsbD j <;> simp [hv, hw] at hj ⊢

theorem polyOf_eq_zero_iff (v : Word) : polyOf v = 0 ↔ v = 0 := by
  have hzero : polyOf 0 = 0 := by
    ext j
    simp
  rw [← polyOf_injective.eq_iff, hzero]

@[simp] theorem polyOf_xor (v w : Word) : polyOf (v ^^^ w) = polyOf v + polyOf w := by
  ext j
  have h11 : (1 + 1 : ZMod 2) = 0 := by decide
  cases hv : v.getLsbD j <;> cases hw : w.getLsbD j <;> simp [hv, hw, h11]

/-- A shift that pushes no bit out is a multiplication by a power of x. -/
theorem polyOf_shiftLeft {v : Word} {n k : Nat} (hv : clearFrom v n) (hk : n + k ≤ 32) :
    polyOf (v <<< k) = polyOf v * X ^ k := by
  rw [clearFrom_iff] at hv
  ext j
  rw [coeff_mul_X_pow', coeff_polyOf, coeff_polyOf, BitVec.getLsbD_shiftLeft]
  by_cases hkj : k ≤ j
  · by_cases hj : j < 32
    · simp [hkj, hj, Nat.not_lt.2 hkj]
    · simp [hj, hv (j - k) (by omega)]
  · simp [hkj, Nat.lt_of_not_le hkj]

theorem degree_polyOf_lt_iff (v : Word) (n : Nat) : (polyOf v).degree < n ↔ clearFrom v n := by
  simp [degree_lt_iff_coeff_zero, clearFrom_iff]

/-- A well-formed generator holds a monic polynomial of the degree in GDEG. -/
theorem isMonicOfDegree_polyOf {g : Word} {z : Nat} (hg : generatorWellFormed g z) :
    IsMonicOfDegree (polyOf g) z := by
  obtain ⟨hlead, habove⟩ := (generatorWellFormed_iff g z).1 hg
  rw [clearFrom_iff] at habove
  rw [isMonicOfDegree_iff, natDegree_le_iff_coeff_eq_zero]
  refine ⟨fun j hj => ?_, ?_⟩
  · simp [habove j hj]
  · simp [hlead]

theorem monic_polyOf {g : Word} {z : Nat} (hg : generatorWellFormed g z) : (polyOf g).Monic :=
  (isMonicOfDegree_polyOf hg).monic

/-- A word without a bit from the degree on is a remainder already. -/
theorem polyOf_modByMonic_of_clearFrom {g v : Word} {z : Nat} (hg : generatorWellFormed g z)
    (hv : clearFrom v z) : polyOf v %ₘ polyOf g = polyOf v := by
  rw [modByMonic_eq_self_iff (monic_polyOf hg), degree_eq_natDegree (monic_polyOf hg).ne_zero,
    (isMonicOfDegree_polyOf hg).natDegree_eq]
  exact (degree_polyOf_lt_iff v z).2 hv

/-- Subtraction over GF(2) is addition, and so XOR: two words leave one remainder exactly when their XOR
is a multiple. -/
theorem dvd_polyOf_xor_iff {g : Word} {z : Nat} (hg : generatorWellFormed g z) (v w : Word) :
    polyOf g ∣ polyOf (v ^^^ w) ↔ polyOf v %ₘ polyOf g = polyOf w %ₘ polyOf g := by
  rw [polyOf_xor, ← CharTwo.sub_eq_add, ← modByMonic_eq_zero_iff_dvd (monic_polyOf hg), sub_modByMonic,
    sub_eq_zero]

end Sys2Proof.Claims

namespace Sys2Proof.Machine

open Sys2Proof.Claims Polynomial

/-! ### The loop of R100 -/

theorem getLsbD_shiftLeft_generator {g : Word} {z k : Nat} (hg : generatorWellFormed g z)
    (hk : z + k < 32) : (g <<< k).getLsbD (z + k) = true ∧ clearFrom (g <<< k) (z + k + 1) := by
  obtain ⟨hlead, habove⟩ := (generatorWellFormed_iff g z).1 hg
  rw [clearFrom_iff] at habove ⊢
  refine ⟨?_, fun j hj => ?_⟩
  · simp [hk, hlead]
  · simp [BitVec.getLsbD_shiftLeft, habove (j - k) (by omega)]

/-- Each iteration clears the top bit left, so none from Z on is left at the end. -/
theorem clearFrom_polymodLoop {g : Word} {z : Nat} (hg : generatorWellFormed g z) {k : Nat} {r : Word}
    (hr : clearFrom r (z + k)) : clearFrom (polymodLoop g z k r) z := by
  induction k generalizing r with
  | zero => exact hr
  | succ k ih =>
    refine ih fun j hj hle => ?_
    by_cases hbit : r.getLsbD (z + k)
    · have hk : z + k < 32 := BitVec.lt_of_getLsbD hbit
      obtain ⟨htop, habove⟩ := getLsbD_shiftLeft_generator hg hk
      rw [if_pos hbit]
      obtain rfl | hlt := Nat.eq_or_lt_of_le hle
      · rw [BitVec.getLsbD_xor, hbit, htop, Bool.xor_self]
      · exact hr.xor habove j hj hlt
    · rw [if_neg hbit]
      obtain rfl | hlt := Nat.eq_or_lt_of_le hle
      · exact Bool.eq_false_iff.2 hbit
      · exact hr j hj hlt

/-- Each iteration adds a multiple of the divisor, so the remainder stays the same. -/
theorem polymodLoop_modByMonic {g : Word} {z : Nat} (hg : generatorWellFormed g z) (k : Nat) (r : Word) :
    polyOf (polymodLoop g z k r) %ₘ polyOf g = polyOf r %ₘ polyOf g := by
  induction k generalizing r with
  | zero => rfl
  | succ k ih =>
    rw [polymodLoop, ih]
    by_cases hbit : r.getLsbD (z + k)
    · have hk : z + k < 32 := BitVec.lt_of_getLsbD hbit
      have hshift : polyOf (g <<< k) = polyOf g * X ^ k :=
        polyOf_shiftLeft ((generatorWellFormed_iff g z).1 hg).2 (by omega)
      rw [if_pos hbit, polyOf_xor, hshift, add_modByMonic, self_mul_modByMonic (monic_polyOf hg), add_zero]
    · rw [if_neg hbit]

/-! ### polymod (40_gf2_engine.md R100, R101)

The lengths need no bound here: a loop that begins above bit 31 finds no bit there. -/

theorem polymod_of_le (a g : Word) {len z : Nat} (h : len ≤ z) : polymod a len g z = a := by
  rw [polymod, Nat.sub_eq_zero_of_le h, polymodLoop]

section

variable {a b g : Word} {len z : Nat}

theorem clearFrom_polymod_degree (hg : generatorWellFormed g z) (ha : clearFrom a len) :
    clearFrom (polymod a len g z) z :=
  clearFrom_polymodLoop hg (ha.mono (by omega))

theorem clearFrom_polymod_length (hg : generatorWellFormed g z) (ha : clearFrom a len) :
    clearFrom (polymod a len g z) len := by
  obtain h | h := Nat.le_total len z
  · rwa [polymod_of_le a g h]
  · exact (clearFrom_polymod_degree hg ha).mono h

theorem polyOf_polymod (hg : generatorWellFormed g z) (ha : clearFrom a len) :
    polyOf (polymod a len g z) = polyOf a %ₘ polyOf g :=
  calc polyOf (polymod a len g z)
      = polyOf (polymod a len g z) %ₘ polyOf g :=
        (polyOf_modByMonic_of_clearFrom hg (clearFrom_polymod_degree hg ha)).symm
    _ = polyOf a %ₘ polyOf g := polymodLoop_modByMonic hg (len - z) a

/-- The length is of no account beyond the dividend's own. -/
theorem polymod_length_eq (hg : generatorWellFormed g z) (ha : clearFrom a len) {len' : Nat}
    (h : len ≤ len') : polymod a len g z = polymod a len' g z :=
  polyOf_injective ((polyOf_polymod hg ha).trans (polyOf_polymod hg (ha.mono h)).symm)

/-- The remainder is the one word without a bit from Z on that differs from the dividend by a multiple. -/
theorem eq_polymod_iff (hg : generatorWellFormed g z) (ha : clearFrom a len) (r : Word) :
    r = polymod a len g z ↔ clearFrom r z ∧ polyOf g ∣ polyOf (a ^^^ r) := by
  rw [dvd_polyOf_xor_iff hg]
  constructor
  · rintro rfl
    exact ⟨clearFrom_polymod_degree hg ha, (polymodLoop_modByMonic hg (len - z) a).symm⟩
  · rintro ⟨hclear, hmod⟩
    apply polyOf_injective
    rw [polyOf_polymod hg ha, hmod, polyOf_modByMonic_of_clearFrom hg hclear]

theorem polymod_xor (hg : generatorWellFormed g z) (ha : clearFrom a len) (hb : clearFrom b len) :
    polymod (a ^^^ b) len g z = polymod a len g z ^^^ polymod b len g z := by
  apply polyOf_injective
  rw [polyOf_xor, polyOf_polymod hg (ha.xor hb), polyOf_polymod hg ha, polyOf_polymod hg hb, polyOf_xor,
    add_modByMonic]

theorem polymod_eq_zero_iff (hg : generatorWellFormed g z) (ha : clearFrom a len) :
    polymod a len g z = 0 ↔ polyOf g ∣ polyOf a := by
  rw [← polyOf_eq_zero_iff, polyOf_polymod hg ha, modByMonic_eq_zero_iff_dvd (monic_polyOf hg)]

/-- The divisor 1 leaves nothing. -/
theorem polymod_of_degree_eq_zero (hg : generatorWellFormed g z) (ha : clearFrom a len) (hz : z = 0) :
    polymod a len g z = 0 :=
  (clearFrom_zero_iff _).1 ((clearFrom_polymod_degree hg ha).mono hz.le)

end

/-- Settles O7: the loop keeps the remainder and ends with a word of degree below Z. -/
theorem polymodIsPolynomialRemainder : Obligations.PolymodIsPolynomialRemainder :=
  fun _ _ _ _ _ _ hg ha => polyOf_polymod hg ha

/-- Settles O8: each property is one of Mathlib's remainder, or of the loop's last word. -/
theorem polymodProperties : Obligations.PolymodProperties := by
  intro a b g len z _ _ hg ha hb
  obtain ⟨hclear, hdvd⟩ := (eq_polymod_iff hg ha _).1 rfl
  exact ⟨⟨clearFrom_polymod_length hg ha, hclear⟩, polymod_of_le a g,
    fun _ h _ => polymod_length_eq hg ha h, polymod_of_degree_eq_zero hg ha, hdvd,
    fun r hr hd => (eq_polymod_iff hg ha r).2 ⟨hr, hd⟩, polymod_xor hg ha hb, polymod_eq_zero_iff hg ha⟩

/-! ### DIVREM (40_gf2_engine.md R102) -/

/-- The model's completion is the statements' one. -/
theorem withRegs_complete_eq_doneWith (s : State) (r : Regs) : s.withRegs r.complete = doneWith s r := rfl

/-- A command whose first failing check raises `c` takes that fault. -/
theorem exec_of_fail {i : Instr} {s : State} {c : Cause}
    (h : firstFailure (commandChecks i s.regs) = some c) : exec i s = .next (faultedWith s c) := by
  rw [exec_eq_checked, checked_of_fail _ s h, takeFault_eq_faultedWith]

/-- A command whose checks pass has its effect and completes. -/
theorem exec_of_pass {i : Instr} {s : State} (h : firstFailure (commandChecks i s.regs) = Option.none) :
    exec i s = .next (doneWith s (commandEffect i s.regs)) := by
  rw [exec_eq_checked, checked_of_pass _ s h, withRegs_complete_eq_doneWith]

/-- The first failing check of DIVREM, in the vocabulary of the statements. -/
theorem firstFailure_divrem (len : Nat) (r : Regs) :
    firstFailure (commandChecks (.divrem len) r) =
      if gOk r then
        if len = 0 → cOk r then
          if len ≤ 32 then
            if clearFrom r.divd (r.dividendLength len) then Option.none else some .operandRange
          else some .badArg
        else some .badConfig
      else some .malformedPoly := by
  simp only [commandChecks, firstFailure_cons, firstFailure_nil, generatorOk_iff_gOk, Bool.or_eq_true,
    bne_iff_ne, configOk_iff_cOk, decide_eq_true_eq, noBitFrom_iff_clearFrom, ← imp_iff_not_or, ne_eq]

/-- Settles O9: the checks, read as the statement's conditions, decide the completion. -/
theorem divremWritesRemainder : Obligations.DivremWritesRemainder := by
  refine ⟨fun n hn => decodeOfEncodeIsIdentity (.divrem n) ((Instr.wellFormed_iff _).2 hn), ?_⟩
  rintro len n s rfl
  refine ⟨fun hg => exec_of_fail ?_, fun hg h0 hc => exec_of_fail ?_, fun hg hlen => exec_of_fail ?_,
    fun hg hc hlen hd => exec_of_fail ?_, fun hg hc hlen hd => exec_of_pass ?_⟩ <;>
    rw [firstFailure_divrem]
  · rw [if_neg hg]
  · rw [if_pos hg, if_neg fun h => hc (h h0)]
  · have hc : len = 0 → cOk s.regs := by omega
    rw [if_pos hg, if_pos hc, if_neg (Nat.not_le.2 hlen)]
  · rw [if_pos hg, if_pos hc, if_pos hlen]
    exact if_neg hd
  · rw [if_pos hg, if_pos hc, if_pos hlen]
    exact if_pos hd

/-- Settles O10: REM is the polymod of O9's completion, and each corner case is a property of polymod. -/
theorem divremCornerCases : Obligations.DivremCornerCases := by
  intro len n s hn hg hc hlen hd
  obtain ⟨-, -, -, -, hdone⟩ := divremWritesRemainder.2 len n s hn
  refine ⟨_, hdone hg hc hlen hd, polymod_of_le _ _, fun h0 => ?_,
    fun hz => polymod_of_degree_eq_zero hg hd (congrArg BitVec.toNat hz), fun hself _ => ?_,
    clearFrom_polymod_length hg hd, clearFrom_polymod_degree hg hd⟩
  · exact (polymod_eq_zero_iff hg hd).2 (by rw [(polyOf_eq_zero_iff _).2 h0]; exact dvd_zero _)
  · exact (polymod_eq_zero_iff hg hd).2 (by rw [hself])

end Sys2Proof.Machine
end

section
/-! SUPPORT. The checks of ENCODE and CHECK (41_codec.md R121, R124), the codewords (R122) and what they
leave undetected (R125). -/

namespace Sys2Proof.Machine

open Sys2Proof.Claims Polynomial

/-! ### Codewords (41_codec.md R120, R122) -/

theorem clearFrom_shiftLeft {v : Word} {k : Nat} (hv : clearFrom v k) (z : Nat) :
    clearFrom (v <<< z) (k + z) := fun j _ hle => by
  simp [(clearFrom_iff v k).1 hv (j - z) (by omega)]

theorem clearFrom_shiftRight {v : Word} {k z : Nat} (hv : clearFrom v (k + z)) :
    clearFrom (v >>> z) k := fun j _ hle => by
  simpa using (clearFrom_iff v (k + z)).1 hv (z + j) (by omega)

/-- A shift out and back in loses the bits below `z` alone. -/
theorem clearFrom_shiftRight_shiftLeft_xor (v : Word) (z : Nat) :
    clearFrom ((v >>> z) <<< z ^^^ v) z := fun j hj hle => by
  simp [hj, Nat.not_lt.2 hle, Nat.add_sub_cancel' hle]

section

variable {info info' g : Word} {k z : Nat}

theorem clearFrom_encodeInfo (hg : generatorWellFormed g z) (hi : clearFrom info k) :
    clearFrom (encodeInfo info k g z) (k + z) :=
  (clearFrom_shiftLeft hi z).xor (clearFrom_polymod_length hg (clearFrom_shiftLeft hi z))

/-- The extended vector and its remainder differ by a multiple of the generator, and the codeword is their
difference. -/
theorem dvd_polyOf_encodeInfo (hg : generatorWellFormed g z) (hi : clearFrom info k) :
    polyOf g ∣ polyOf (encodeInfo info k g z) :=
  ((eq_polymod_iff hg (clearFrom_shiftLeft hi z) _).1 rfl).2

theorem polymod_encodeInfo (hg : generatorWellFormed g z) (hi : clearFrom info k) :
    polymod (encodeInfo info k g z) (k + z) g z = 0 :=
  (polymod_eq_zero_iff hg (clearFrom_encodeInfo hg hi)).2 (dvd_polyOf_encodeInfo hg hi)

theorem encodeInfo_getLsbD_add (hg : generatorWellFormed g z) (hi : clearFrom info k) {j : Nat}
    (hj : z + j < 32) : (encodeInfo info k g z).getLsbD (z + j) = info.getLsbD j := by
  have hrem : (polymod (info <<< z) (k + z) g z).getLsbD (z + j) = false :=
    clearFrom_polymod_degree hg (clearFrom_shiftLeft hi z) _ hj (Nat.le_add_right z j)
  rw [encodeInfo, BitVec.getLsbD_xor, hrem, Bool.xor_false, BitVec.getLsbD_shiftLeft]
  simp [hj]

theorem encodeInfo_getLsbD_low (info g : Word) (k : Nat) {j : Nat} (hj : j < z) :
    (encodeInfo info k g z).getLsbD j = (polymod (info <<< z) (k + z) g z).getLsbD j := by
  simp [encodeInfo, hj]

theorem encodeInfo_xor (hg : generatorWellFormed g z) (hi : clearFrom info k) (hi' : clearFrom info' k) :
    encodeInfo (info ^^^ info') k g z = encodeInfo info k g z ^^^ encodeInfo info' k g z := by
  simp only [encodeInfo, BitVec.shiftLeft_xor_distrib,
    polymod_xor hg (clearFrom_shiftLeft hi z) (clearFrom_shiftLeft hi' z)]
  ac_rfl

/-- A multiple of the generator is the codeword of its own upper bits: the bits below them are the one
remainder that makes a multiple. -/
theorem encodeInfo_shiftRight {e : Word} (hg : generatorWellFormed g z) (he : clearFrom e (k + z))
    (hdvd : polyOf g ∣ polyOf e) : encodeInfo (e >>> z) k g z = e := by
  have hext : clearFrom ((e >>> z) <<< z) (k + z) := clearFrom_shiftLeft (clearFrom_shiftRight he) z
  have hxor : (e >>> z) <<< z ^^^ ((e >>> z) <<< z ^^^ e) = e := by
    rw [← BitVec.xor_assoc, BitVec.xor_self, BitVec.zero_xor]
  have hlow : (e >>> z) <<< z ^^^ e = polymod ((e >>> z) <<< z) (k + z) g z :=
    (eq_polymod_iff hg hext _).2 ⟨clearFrom_shiftRight_shiftLeft_xor e z, hxor.symm ▸ hdvd⟩
  rw [encodeInfo, ← hlow, hxor]

end

/-- Settles O12: each property is one of the codeword's lemmas. -/
theorem codewordProperties : Obligations.CodewordProperties := by
  intro info info' g k z ⟨_, hn, _⟩ hg hi hi'
  exact ⟨polymod_encodeInfo hg hi, dvd_polyOf_encodeInfo hg hi,
    fun j hj => encodeInfo_getLsbD_add hg hi (by omega), fun _ hj => encodeInfo_getLsbD_low info g k hj,
    clearFrom_encodeInfo hg hi, encodeInfo_xor hg hi hi'⟩

/-! ### Detection (41_codec.md R123, R125) -/

theorem hasError_eq_decide (v : Word) (n : Nat) (g : Word) (z : Nat) :
    hasError v n g z = decide (polymod v n g z ≠ 0) := by
  rw [Bool.eq_iff_iff, hasError, bne_iff_ne, decide_eq_true_eq]
  rfl

theorem hasError_eq_false_iff {v g : Word} {n z : Nat} (hg : generatorWellFormed g z)
    (hv : clearFrom v n) : hasError v n g z = false ↔ polyOf g ∣ polyOf v := by
  rw [hasError_eq_decide, decide_eq_false_iff_not, not_not, polymod_eq_zero_iff hg hv]

/-- Settles O15: remainders add, so a codeword's adds nothing; and the multiples of g are the codewords. -/
theorem detectionDependsOnErrorOnly : Obligations.DetectionDependsOnErrorOnly := by
  intro c e g n z ⟨_, _, hz⟩ hg hc he hzero
  have hlen : n - z + z = n := Nat.sub_add_cancel hz.le
  refine ⟨?_, hasError_eq_false_iff hg he, (hasError_eq_false_iff hg he).trans ⟨fun hdvd => ?_, ?_⟩⟩
  · simp [hasError, polymod_xor hg hc he, hzero]
  · rw [← hlen] at he
    exact ⟨e >>> z, clearFrom_shiftRight he, (encodeInfo_shiftRight hg he hdvd).symm⟩
  · rintro ⟨info, hi, rfl⟩
    exact dvd_polyOf_encodeInfo hg hi

/-! ### ENCODE and CHECK (41_codec.md R121, R124) -/

/-- The completion of a command that checks the generator, the configuration and the stray bits of one
operand, in the vocabulary of the statements. -/
theorem exec_of_operandChecks {i : Instr} {s : State} {v : Word} {n : Nat}
    (h : commandChecks i s.regs =
      [(s.regs.generatorOk, .malformedPoly), (s.regs.configOk, .badConfig), (noBitFrom v n, .operandRange)]) :
    (¬ gOk s.regs → exec i s = .next (faultedWith s .malformedPoly)) ∧
    (gOk s.regs → ¬ cOk s.regs → exec i s = .next (faultedWith s .badConfig)) ∧
    (gOk s.regs → cOk s.regs → ¬ clearFrom v n → exec i s = .next (faultedWith s .operandRange)) ∧
    (gOk s.regs → cOk s.regs → clearFrom v n →
      exec i s = .next (doneWith s (commandEffect i s.regs))) := by
  have hfirst : firstFailure (commandChecks i s.regs) =
      if gOk s.regs then
        if cOk s.regs then
          if clearFrom v n then Option.none else some .operandRange
        else some .badConfig
      else some .malformedPoly := by
    simp only [h, firstFailure_cons, firstFailure_nil, generatorOk_iff_gOk, configOk_iff_cOk,
      noBitFrom_iff_clearFrom]
  refine ⟨fun hg => exec_of_fail ?_, fun hg hc => exec_of_fail ?_, fun hg hc hv => exec_of_fail ?_,
    fun hg hc hv => exec_of_pass ?_⟩ <;> rw [hfirst]
  · rw [if_neg hg]
  · rw [if_pos hg, if_neg hc]
  · rw [if_pos hg, if_pos hc, if_neg hv]
  · rw [if_pos hg, if_pos hc, if_pos hv]

theorem infoLength_add_degree {r : Regs} (h : cOk r) : r.infoLength + r.degree = r.codeLength :=
  Nat.sub_add_cancel h.2.2.le

/-- Settles O11: under CfgOK the length K + Z of the extended vector is N. -/
theorem encodeWritesCodeword : Obligations.EncodeWritesCodeword := by
  refine ⟨decodeOfEncodeIsIdentity .encode rfl, ?_⟩
  rintro s n z rfl rfl
  obtain ⟨hpoly, hconfig, hrange, hdone⟩ := exec_of_operandChecks (i := .encode) (s := s) rfl
  refine ⟨hpoly, hconfig, hrange, fun hg hc hi => ?_⟩
  rw [hdone hg hc hi, commandEffect, encodeInfo, infoLength_add_degree hc]
  rfl

/-- Settles O14: ERRDET is the comparison of the new SYND with 0. -/
theorem checkWritesSyndrome : Obligations.CheckWritesSyndrome := by
  refine ⟨decodeOfEncodeIsIdentity .check rfl, ?_⟩
  rintro s synd rfl
  obtain ⟨hpoly, hconfig, hrange, hdone⟩ := exec_of_operandChecks (i := .check) (s := s) rfl
  refine ⟨hpoly, hconfig, hrange, fun hg hc hr => ?_⟩
  rw [hdone hg hc hr, commandEffect, hasError_eq_decide]
  rfl

theorem exec_check_of_codeword {s : State} (hg : gOk s.regs) (hc : cOk s.regs)
    (hr : clearFrom s.regs.rx s.regs.codeLength)
    (hzero : polymod s.regs.rx s.regs.codeLength s.regs.gpoly s.regs.degree = 0) :
    exec .check s = .next (doneWith s
      { s.regs with synd := 0, status := { s.regs.status with errdet := false } }) := by
  obtain ⟨-, -, -, hdone⟩ := checkWritesSyndrome.2 s 0 hzero.symm
  exact hdone hg hc hr

/-- Settles O13: ENCODE leaves the generator and the configuration, so CHECK finds the codeword's remainder,
which is 0. -/
theorem checkOfEncodedWordIsClean : Obligations.CheckOfEncodedWordIsClean := by
  intro s hg hc hi
  obtain ⟨-, -, -, hencode⟩ := exec_of_operandChecks (i := .encode) (s := s) rfl
  have hclear : clearFrom (commandEffect .encode s.regs).cw s.regs.codeLength :=
    infoLength_add_degree hc ▸ clearFrom_encodeInfo hg hi
  have hzero : polymod (commandEffect .encode s.regs).cw s.regs.codeLength s.regs.gpoly s.regs.degree = 0 :=
    infoLength_add_degree hc ▸ polymod_encodeInfo hg hi
  exact ⟨_, _, hencode hg hc hi, exec_check_of_codeword hg hc hclear hzero, rfl, rfl, rfl, rfl⟩

end Sys2Proof.Machine
end

section
/-! SUPPORT. The canonical enumeration of error vectors: increasing tuples of positions (42_analyzer.md R140),
the words they stand for, and the first vector and the successor (R141). -/

namespace Sys2Proof.Machine

open Sys2Proof.Claims

/-! ### Increasing tuples of positions (42_analyzer.md R140) -/

/-- The tuples are the sublists of length `w` of the positions in increasing order. -/
theorem mem_tuplesFrom {p m w : Nat} {t : List Nat} :
    t ∈ tuplesFrom p m w ↔ t.Sublist (List.range' p m) ∧ t.length = w := by
  induction p, m, w using tuplesFrom.induct generalizing t with
  | case1 p m => simp +contextual [tuplesFrom]
  | case2 p w => simp +contextual [tuplesFrom]
  | case3 p m w ih₁ ih₂ =>
    rw [tuplesFrom, List.mem_append, List.mem_map, ih₂, List.range'_succ, List.sublist_cons_iff]
    constructor
    · rintro (⟨a, ha, rfl⟩ | ⟨hsub, hlen⟩)
      · obtain ⟨hsub, hlen⟩ := ih₁.1 ha
        exact ⟨.inr ⟨a, rfl, hsub⟩, congrArg (· + 1) hlen⟩
      · exact ⟨.inl hsub, hlen⟩
    · rintro ⟨hsub | ⟨a, rfl, hsub⟩, hlen⟩
      · exact .inr ⟨hsub, hlen⟩
      · exact .inl ⟨a, ih₁.2 ⟨hsub, Nat.succ_injective hlen⟩, rfl⟩

theorem pairwise_lt_tuplesFrom (p m w : Nat) : (tuplesFrom p m w).Pairwise (· < ·) := by
  induction p, m, w using tuplesFrom.induct with
  | case1 => simp [tuplesFrom]
  | case2 => simp [tuplesFrom]
  | case3 p m w ih₁ ih₂ =>
    rw [tuplesFrom, List.pairwise_append, List.pairwise_map]
    refine ⟨ih₁.imp List.cons_lt_cons_self.2, ih₂, fun t ht u hu => ?_⟩
    obtain ⟨a, -, rfl⟩ := List.mem_map.1 ht
    obtain ⟨hsub, hlen⟩ := mem_tuplesFrom.1 hu
    obtain ⟨q, b, rfl⟩ := List.exists_cons_of_length_eq_add_one hlen
    have hq := List.mem_range'_1.1 (hsub.subset List.mem_cons_self)
    exact List.cons_lt_cons_iff.2 (.inl (by omega))

/-- Element 0: the first `w` positions. -/
theorem tuplesFrom_getElem?_zero (p m w : Nat) :
    (tuplesFrom p m w)[0]? = if w ≤ m then some (List.range' p w) else none := by
  induction p, m, w using tuplesFrom.induct with
  | case1 => simp [tuplesFrom]
  | case2 => simp [tuplesFrom]
  | case3 p m w ih₁ ih₂ =>
    rw [tuplesFrom, List.getElem?_append, List.getElem?_map, ih₁]
    by_cases h : w ≤ m
    · simp [h, length_tuplesFrom, Nat.choose_pos h, List.range'_succ]
    · have hlt : m < w := by omega
      simp [length_tuplesFrom, Nat.choose_eq_zero_of_lt hlt, ih₂, h, Nat.not_le.2 (hlt.trans w.lt_succ_self)]

/-- The successor of a tuple is the next one in the list, and the last tuple has none. -/
theorem nextTuple_of_getElem? {n p m w i : Nat} {t : List Nat} (hn : p + m = n)
    (h : (tuplesFrom p m w)[i]? = some t) : nextTuple n t = (tuplesFrom p m w)[i + 1]? := by
  induction p, m, w using tuplesFrom.induct generalizing i t with
  | case1 p m =>
    obtain ⟨rfl, rfl⟩ : i = 0 ∧ t = [] := by
      cases i <;> simp_all [tuplesFrom]
    simp [tuplesFrom, nextTuple]
  | case2 => simp [tuplesFrom] at h
  | case3 p m w ih₁ ih₂ =>
    have hn' : p + 1 + m = n := by omega
    rw [tuplesFrom] at h ⊢
    by_cases hi : i < (tuplesFrom (p + 1) m w).length
    · rw [List.getElem?_append_left (by simpa using hi), List.getElem?_map,
        List.getElem?_eq_getElem hi] at h
      obtain rfl : p :: (tuplesFrom (p + 1) m w)[i] = t := by simpa using h
      have hnext := ih₁ hn' (List.getElem?_eq_getElem hi)
      have hlen := (mem_tuplesFrom.1 (List.getElem_mem hi)).2
      rw [nextTuple, hnext, hlen]
      by_cases hlast : i + 1 < (tuplesFrom (p + 1) m w).length
      · simp [List.getElem?_append, hlast]
      · obtain hlast : (tuplesFrom (p + 1) m w).length = i + 1 := by omega
        have hiff : p + (w + 1) < n ↔ w + 1 ≤ m := by omega
        simp [List.getElem?_append, hlast, tuplesFrom_getElem?_zero, hiff]
    · have hle : (tuplesFrom (p + 1) m w).length ≤ i := Nat.not_lt.1 hi
      rw [List.getElem?_append_right (by simpa using hle), List.length_map] at h
      rw [List.getElem?_append_right (by simpa using hle.trans i.le_succ), List.length_map, ih₂ hn' h,
        Nat.succ_sub hle]

/-! ### Positions and words (42_analyzer.md R140, R141) -/

theorem getLsbD_one_shiftLeft (k j : Nat) : (1#32 <<< k).getLsbD j = true ↔ j < 32 ∧ k = j := by
  rw [← BitVec.twoPow_eq, BitVec.getLsbD_twoPow, Bool.and_eq_true, decide_eq_true_eq, decide_eq_true_eq]
  omega

theorem getLsbD_vecOf (n : Nat) (t : List Nat) (j : Nat) :
    (vecOf n t).getLsbD j = true ↔ j < 32 ∧ ∃ p ∈ t, n - 1 - p = j := by
  induction t with
  | nil => simp [vecOf]
  | cons p t ih =>
    rw [vecOf, BitVec.getLsbD_or, Bool.or_eq_true, getLsbD_one_shiftLeft, ih]
    simp [and_or_left]

theorem mem_positionsOf {n : Nat} {v : Word} {p : Nat} :
    p ∈ positionsOf n v ↔ p < n ∧ v.getLsbD (n - 1 - p) = true := by
  simp [positionsOf]

theorem positionsOf_sublist (n : Nat) (v : Word) : (positionsOf n v).Sublist (List.range n) :=
  List.filter_sublist

theorem clearFrom_vecOf {n : Nat} {t : List Nat} (ht : t.Sublist (List.range n)) :
    clearFrom (vecOf n t) n := by
  refine fun j _ hj => Bool.eq_false_iff.2 fun hbit => ?_
  obtain ⟨-, p, hp, rfl⟩ := (getLsbD_vecOf n t j).1 hbit
  have := List.mem_range.1 (ht.subset hp)
  omega

theorem positionsOf_vecOf {n : Nat} (hn : n ≤ 32) {t : List Nat} (ht : t.Sublist (List.range n)) :
    positionsOf n (vecOf n t) = t := by
  have hsorted := List.pairwise_lt_range (n := n)
  refine (hsorted.sublist (positionsOf_sublist n _)).eq_of_mem_iff (hsorted.sublist ht) fun p => ?_
  rw [mem_positionsOf, getLsbD_vecOf]
  constructor
  · rintro ⟨hp, -, q, hq, heq⟩
    have := List.mem_range.1 (ht.subset hq)
    obtain rfl : q = p := by omega
    exact hq
  · intro hp
    have := List.mem_range.1 (ht.subset hp)
    exact ⟨this, by omega, p, hp, rfl⟩

theorem vecOf_positionsOf {n : Nat} {v : Word} (hv : clearFrom v n) : vecOf n (positionsOf n v) = v := by
  refine BitVec.eq_of_getLsbD_eq fun j hj => Bool.eq_iff_iff.2 ?_
  rw [getLsbD_vecOf]
  constructor
  · rintro ⟨-, p, hp, rfl⟩
    exact (mem_positionsOf.1 hp).2
  · intro hbit
    have hjn : j < n := by
      by_contra hle
      simp [hv j hj (by omega)] at hbit
    have hback : n - 1 - (n - 1 - j) = j := by omega
    exact ⟨hj, n - 1 - j, mem_positionsOf.2 ⟨by omega, by rwa [hback]⟩, hback⟩

/-- Every 1 bit of a word of length `n` is one position. -/
theorem length_positionsOf {n : Nat} (hn : n ≤ 32) {v : Word} (hv : clearFrom v n) :
    (positionsOf n v).length = popcount v := by
  have hhigh : (List.range (32 - n)).countP (fun j => v.getLsbD (n + j)) = 0 :=
    List.countP_eq_zero.2 fun j hj => by
      have := List.mem_range.1 hj
      simp [hv (n + j) (by omega) (by omega)]
  have hsplit : List.range 32 = List.range n ++ (List.range (32 - n)).map (n + ·) := by
    rw [← List.range_add, Nat.add_sub_cancel' hn]
  have hrev : (List.range n).map (n - 1 - ·) = (List.range n).reverse := by
    simp [List.range_eq_range', List.reverse_range']
  calc (positionsOf n v).length
      = ((List.range n).map (n - 1 - ·)).countP (fun j => v.getLsbD j) := by
        rw [positionsOf, ← List.countP_eq_length_filter, List.countP_map]; rfl
    _ = (List.range n).countP (fun j => v.getLsbD j) := by rw [hrev, List.countP_reverse]
    _ = popcount v := by
        rw [popcount, hsplit, List.countP_append, List.countP_map]
        exact (Nat.add_eq_left.2 hhigh).symm

/-! ### The error vectors (R140) -/

theorem mem_errorVectors {n w : Nat} (hn : n ≤ 32) {v : Word} :
    v ∈ errorVectors n w ↔ clearFrom v n ∧ popcount v = w := by
  simp only [errorVectors, List.mem_map, mem_tuplesFrom, ← List.range_eq_range']
  constructor
  · rintro ⟨t, ⟨hsub, hlen⟩, rfl⟩
    have hclear := clearFrom_vecOf hsub
    exact ⟨hclear, by rw [← length_positionsOf hn hclear, positionsOf_vecOf hn hsub, hlen]⟩
  · rintro ⟨hclear, hpop⟩
    exact ⟨positionsOf n v, ⟨positionsOf_sublist n v, by rw [length_positionsOf hn hclear, hpop]⟩,
      vecOf_positionsOf hclear⟩

theorem pairwise_positionsOf_lt_errorVectors {n : Nat} (hn : n ≤ 32) (w : Nat) :
    (errorVectors n w).Pairwise (fun u v => positionsOf n u < positionsOf n v) := by
  have hpos : ∀ t ∈ tuplesFrom 0 n w, positionsOf n (vecOf n t) = t := fun t ht =>
    positionsOf_vecOf hn (List.range_eq_range' ▸ (mem_tuplesFrom.1 ht).1)
  rw [errorVectors, List.pairwise_map]
  exact (pairwise_lt_tuplesFrom 0 n w).imp_of_mem fun ht hu hlt => by rwa [hpos _ ht, hpos _ hu]

theorem nodup_errorVectors {n : Nat} (hn : n ≤ 32) (w : Nat) : (errorVectors n w).Nodup :=
  (pairwise_positionsOf_lt_errorVectors hn w).imp fun {u v} hlt (heq : u = v) =>
    List.lt_irrefl _ (heq ▸ hlt)

/-- Settles O16: each word of length n is its positions, and those are the sublists of 0 .. n-1. -/
theorem errorVectorsListEveryPatternOnce : Obligations.ErrorVectorsListEveryPatternOnce := by
  intro n w _ hn
  refine ⟨fun v => mem_errorVectors hn, nodup_errorVectors hn w, length_errorVectors n w,
    pairwise_positionsOf_lt_errorVectors hn w, fun v p hp => ?_⟩
  rw [mem_positionsOf]
  exact and_iff_right hp

/-! ### First and successor (R141) -/

theorem firstVector_eq_vecOf {n w : Nat} (hw : w ≤ n) (hn : n ≤ 32) :
    firstVector n w = vecOf n (List.range' 0 w) := by
  have hones : 1#32 <<< w - 1#32 = BitVec.ofNat 32 (2 ^ w - 1) := by
    have : ∀ k ≤ 32, 1#32 <<< k - 1#32 = BitVec.ofNat 32 (2 ^ k - 1) := by decide
    exact this w (hw.trans hn)
  refine BitVec.eq_of_getLsbD_eq fun j hj => Bool.eq_iff_iff.2 ?_
  rw [getLsbD_vecOf, firstVector, hones, BitVec.getLsbD_shiftLeft, BitVec.getLsbD_ofNat,
    Nat.testBit_two_pow_sub_one]
  simp only [Bool.and_eq_true, Bool.not_eq_true', decide_eq_true_eq, decide_eq_false_iff_not,
    List.mem_range'_1]
  constructor
  · rintro ⟨⟨-, hlow⟩, -, htop⟩
    exact ⟨hj, n - 1 - j, by omega, by omega⟩
  · rintro ⟨-, p, hp, rfl⟩
    omega

theorem errorVectors_getElem?_zero {n w : Nat} (hw : w ≤ n) (hn : n ≤ 32) :
    (errorVectors n w)[0]? = some (firstVector n w) := by
  rw [errorVectors, List.getElem?_map, tuplesFrom_getElem?_zero, if_pos hw, firstVector_eq_vecOf hw hn]
  rfl

/-- `next` answers the following element of the enumeration, or 0 past the last one. -/
theorem nextVector_of_getElem? {n w i : Nat} (hn : n ≤ 32) {v : Word}
    (h : (errorVectors n w)[i]? = some v) :
    nextVector n v = ((errorVectors n w)[i + 1]?.isSome, (errorVectors n w)[i + 1]?.getD 0) := by
  rw [errorVectors, List.getElem?_map] at h
  obtain ⟨t, ht, rfl⟩ := Option.map_eq_some_iff.1 h
  have hsub := (mem_tuplesFrom.1 (List.mem_of_getElem? ht)).1
  rw [nextVector, positionsOf_vecOf hn (List.range_eq_range' ▸ hsub),
    nextTuple_of_getElem? (Nat.zero_add n) ht, errorVectors, List.getElem?_map]
  cases (tuplesFrom 0 n w)[i + 1]? <;> rfl

/-- Settles O17: each clause is element 0, or the successor read at one index. -/
theorem nextFollowsEnumeration : Obligations.NextFollowsEnumeration := by
  intro n w hw hn
  refine ⟨errorVectors_getElem?_zero hw hn, fun m v v' hv hv' => ?_, fun m v hv hend => ?_, ?_⟩
  · simp [nextVector_of_getElem? hn hv, hv']
  · simp [nextVector_of_getElem? hn hv, hend]
  · have hsingle : errorVectors n 0 = [0] := by simp [errorVectors, tuplesFrom, vecOf]
    have hzero : (errorVectors n 0)[0]? = some 0 := by rw [hsingle]; rfl
    rw [nextVector_of_getElem? hn hzero, hsingle]
    rfl

end Sys2Proof.Machine
end

section
/-! SUPPORT. The enumerator: a live enumeration stays inside its codeword length, and ENUM_FIRST and ENUM_NEXT
walk the error vectors (42_analyzer.md R142, R143). -/

namespace Sys2Proof.Machine

open Sys2Proof.Claims

/-! ### A live enumeration stays in range (42_analyzer.md R143) -/

theorem clearFrom_zero (n : Nat) : clearFrom 0 n := fun _ _ _ => BitVec.getLsbD_zero

theorem clearFrom_firstVector {n w : Nat} (hw : w ≤ n) (hn : n ≤ 32) : clearFrom (firstVector n w) n :=
  ((mem_errorVectors hn).1 (List.mem_of_getElem? (errorVectors_getElem?_zero hw hn))).1

/-- The successor is an error vector again, or 0. -/
theorem clearFrom_nextVector {n : Nat} (hn : n ≤ 32) {v : Word} (hv : clearFrom v n) :
    clearFrom (nextVector n v).2 n := by
  obtain ⟨i, hi⟩ := List.mem_iff_getElem?.1 ((mem_errorVectors hn).2 ⟨hv, rfl⟩)
  rw [nextVector_of_getElem? hn hi]
  cases hnext : (errorVectors n (popcount v))[i + 1]? with
  | none => exact clearFrom_zero n
  | some u => exact ((mem_errorVectors hn).1 (List.mem_of_getElem? hnext)).1

theorem enumeratorInRange_iff (r : Regs) :
    r.enumeratorInRange = true ↔
      (r.status.enumValid = true → 1 ≤ r.codeLength ∧ r.codeLength ≤ 32 ∧ clearFrom r.evec r.codeLength) := by
  cases h : r.status.enumValid
  · simp [Regs.enumeratorInRange, h]
  · simp only [Regs.enumeratorInRange, h, Bool.not_true, Bool.false_or, Bool.and_eq_true, decide_eq_true_eq,
      noBitFrom_iff_clearFrom, and_assoc, forall_const]
    rfl

/-- The enumeration's range speaks of ENUM_VALID, CFG_N and EVEC alone. -/
theorem enumeratorInRange_congr {r r' : Regs} (hvalid : r'.status.enumValid = r.status.enumValid)
    (hn : r'.cfgN = r.cfgN) (hevec : r'.evec = r.evec) :
    r'.enumeratorInRange = true ↔ r.enumeratorInRange = true := by
  simp only [enumeratorInRange_iff, Regs.codeLength, hvalid, hn, hevec]

theorem enumeratorInRange_of_invalid {r : Regs} (h : r.status.enumValid = false) :
    r.enumeratorInRange = true := by
  simp [Regs.enumeratorInRange, h]

/-- A host write ends the enumeration or leaves it (10_state.md R36). -/
theorem writeAt_enumerator_cases (r : Regs) (off : Nat) (v : Word) :
    (r.writeAt off v).status.enumValid = false ∨
      ((r.writeAt off v).status.enumValid = r.status.enumValid ∧ (r.writeAt off v).cfgN = r.cfgN ∧
        (r.writeAt off v).evec = r.evec) := by
  obtain h | h | h | h | h | ⟨_, ⟨_, h⟩ | h | h | h | h | h | h | h⟩ := writeAt_cases r off v <;>
    simp [h, Regs.reset, Status.reset]

/-- Only ENUM_FIRST and ENUM_NEXT write EVEC and ENUM_VALID, and their checks bound N and W. -/
theorem commandEffect_keeps_enumeratorInRange {i : Instr} {r : Regs}
    (hchecks : ∀ x ∈ commandChecks i r, x.1 = true) (hr : r.enumeratorInRange = true) :
    (commandEffect i r).enumeratorInRange = true := by
  cases i with
  | enumFirst w =>
    simp only [commandChecks, List.forall_mem_cons, configOk_iff, decide_eq_true_eq] at hchecks
    obtain ⟨⟨h1, hn, -⟩, hw, -⟩ := hchecks
    exact (enumeratorInRange_iff _).2 fun _ => ⟨h1, hn, clearFrom_firstVector hw hn⟩
  | enumNext =>
    simp only [commandChecks, List.forall_mem_cons] at hchecks
    obtain ⟨-, hvalid, -⟩ := hchecks
    obtain ⟨h1, hn, hclear⟩ := (enumeratorInRange_iff r).1 hr hvalid
    exact (enumeratorInRange_iff _).2 fun _ => ⟨h1, hn, clearFrom_nextVector hn hclear⟩
  | analyzeW w =>
    exact (enumeratorInRange_congr (congrArg Status.enumValid (Regs.setRow_status r w _))
      (Regs.setRow_cfgN r w _) (Regs.setRow_evec r w _)).2 hr
  | nop | divrem _ | encode | check | analyze | run => exact (enumeratorInRange_congr rfl rfl rfl).2 hr

theorem completePending_keeps_enumeratorInRange {s t : State} (h : completePending s = .next t)
    (hr : s.regs.enumeratorInRange = true) : t.regs.enumeratorInRange = true := by
  obtain ⟨i, -, he⟩ | ⟨_, -, rfl⟩ := completePending_cases h
  · obtain ⟨c, -, -, rfl⟩ | ⟨hchecks, rfl⟩ := exec_cases he
    · exact (enumeratorInRange_congr rfl rfl rfl).2 hr
    · exact (enumeratorInRange_congr rfl rfl rfl).2 (commandEffect_keeps_enumeratorInRange hchecks hr)
  · exact (enumeratorInRange_congr rfl rfl rfl).2 hr

/-- Settles O55: a live enumeration ends with its codeword length, and `first` and `next` stay inside it. -/
theorem stepKeepsEnumeratorInRange : Obligations.StepKeepsEnumeratorInRange := by
  intro s t hr h
  obtain ht | ht | ⟨off, v, ht⟩ | ⟨-, hp⟩ := step_cases h
  · rw [ht]; exact enumeratorInRange_of_invalid rfl
  · rw [ht]; exact hr
  · rw [ht]
    obtain hend | ⟨hvalid, hn, hevec⟩ := writeAt_enumerator_cases s.regs off v
    · exact enumeratorInRange_of_invalid hend
    · exact (enumeratorInRange_congr hvalid hn hevec).2 hr
  · exact completePending_keeps_enumeratorInRange hp (by simpa using hr)

/-! ### ENUM_FIRST and ENUM_NEXT (42_analyzer.md R142, R143) -/

/-- The completion of ENUM_FIRST or ENUM_NEXT with EVEC <- `v` and ENUM_VALID <- `valid`. -/
def enumerating (s : State) (valid : Bool) (v : Word) : State :=
  doneWith s { s.regs with evec := v, status := { s.regs.status with enumValid := valid } }

/-- Settles O18: the checks, read as the statement's conditions, decide the completion. -/
theorem enumFirstStartsEnumeration : Obligations.EnumFirstStartsEnumeration := by
  refine ⟨fun n hn => decodeOfEncodeIsIdentity (.enumFirst n) ((Instr.wellFormed_iff _).2 hn), fun w s => ?_⟩
  have hfirst : firstFailure (commandChecks (.enumFirst w) s.regs) =
      if cOk s.regs then if w ≤ s.regs.codeLength then Option.none else some .badArg
      else some .badConfig := by
    simp only [commandChecks, firstFailure_cons, firstFailure_nil, configOk_iff_cOk, decide_eq_true_eq]
  refine ⟨fun hc => exec_of_fail ?_, fun hc hw => exec_of_fail ?_, fun hc hw => exec_of_pass ?_⟩ <;>
    rw [hfirst]
  · rw [if_neg hc]
  · rw [if_pos hc]; exact if_neg (Nat.not_le.2 hw)
  · rw [if_pos hc]; exact if_pos hw

/-- Settles O19: the checks, read as the statement's conditions, decide the completion. -/
theorem enumNextStepsEnumeration : Obligations.EnumNextStepsEnumeration := by
  refine ⟨decodeOfEncodeIsIdentity .enumNext rfl, fun s => ?_⟩
  have hfirst : firstFailure (commandChecks .enumNext s.regs) =
      if cOk s.regs then if s.regs.status.enumValid = true then Option.none else some .enumState
      else some .badConfig := by
    simp only [commandChecks, firstFailure_cons, firstFailure_nil, configOk_iff_cOk]
  refine ⟨fun hc => exec_of_fail ?_, fun hc hv => exec_of_fail ?_, fun hc hv => exec_of_pass ?_⟩ <;>
    rw [hfirst]
  · rw [if_neg hc]
  · rw [if_pos hc, hv]; rfl
  · rw [if_pos hc, if_pos hv]

/-- ENUM_NEXT on a live enumeration, from any state whose configuration is legal. -/
theorem exec_enumNext_enumerating {s : State} (hc : cOk s.regs) (v : Word) :
    exec .enumNext (enumerating s true v) =
      .next (enumerating s (nextVector s.regs.cfgN.toNat v).1 (nextVector s.regs.cfgN.toNat v).2) := by
  obtain ⟨-, -, hdone⟩ := enumNextStepsEnumeration.2 (enumerating s true v)
  exact hdone hc rfl

/-- While the enumeration has an element `m`, `m` ENUM_NEXTs reach it. -/
theorem afterNexts_of_getElem? {s : State} {w : Nat} (hc : cOk s.regs) (hw : w ≤ s.regs.cfgN.toNat) {m : Nat}
    {v : Word} (h : (errorVectors s.regs.cfgN.toNat w)[m]? = some v) :
    afterNexts m (enumerating s true (firstVector s.regs.cfgN.toNat w)) = some (enumerating s true v) := by
  induction m generalizing v with
  | zero =>
    rw [errorVectors_getElem?_zero hw hc.2.1] at h
    rw [afterNexts, Option.some.inj h]
  | succ m ih =>
    obtain ⟨hm, -⟩ := List.getElem?_eq_some_iff.1 h
    have hprev := List.getElem?_eq_getElem (Nat.lt_of_succ_lt hm)
    simp only [afterNexts, ih hprev, exec_enumNext_enumerating hc, nextVector_of_getElem? hc.2.1 hprev, h]
    rfl

/-- After the last element one more ENUM_NEXT ends the enumeration. -/
theorem afterNexts_choose {s : State} {w : Nat} (hc : cOk s.regs) (hw : w ≤ s.regs.cfgN.toNat) :
    afterNexts (s.regs.cfgN.toNat.choose w) (enumerating s true (firstVector s.regs.cfgN.toNat w)) =
      some (enumerating s false 0) := by
  obtain ⟨m, hm⟩ := Nat.exists_eq_add_one.2 (Nat.choose_pos hw)
  have hlen : (errorVectors s.regs.cfgN.toNat w).length = m + 1 := (length_errorVectors _ w).trans hm
  have hlast := List.getElem?_eq_getElem (Nat.lt_of_lt_of_eq m.lt_succ_self hlen.symm)
  have hend : (errorVectors s.regs.cfgN.toNat w)[m + 1]? = none := List.getElem?_eq_none hlen.le
  simp only [hm, afterNexts, afterNexts_of_getElem? hc hw hlast, exec_enumNext_enumerating hc,
    nextVector_of_getElem? hc.2.1 hlast, hend]
  rfl

/-- Settles O20: the states visited are the completions with the elements of E(N, W), in order. -/
theorem enumerationVisitsEveryErrorVector : Obligations.EnumerationVisitsEveryErrorVector := by
  intro s w hc hw
  obtain ⟨-, -, hfirst⟩ := enumFirstStartsEnumeration.2 w s
  obtain ⟨-, hfault, -⟩ := enumNextStepsEnumeration.2 (enumerating s false 0)
  exact ⟨enumerating s true (firstVector s.regs.cfgN.toNat w), hfirst hc hw,
    fun m v h => ⟨_, afterNexts_of_getElem? hc hw h, rfl, rfl, rfl, rfl⟩,
    _, afterNexts_choose hc hw, rfl, rfl, rfl, hfault hc rfl⟩

/-- Settles O21: neither the checks nor the effect of the two commands names GPOLY. -/
theorem enumeratorIgnoresGenerator : Obligations.EnumeratorIgnoresGenerator := by
  intro i s t g hi h
  have hchecks : commandChecks i { s.regs with gpoly := g } = commandChecks i s.regs := by
    obtain rfl | ⟨w, rfl⟩ := hi <;> rfl
  have heffect : commandEffect i { s.regs with gpoly := g } = { commandEffect i s.regs with gpoly := g } := by
    obtain rfl | ⟨w, rfl⟩ := hi <;> rfl
  rw [exec_eq_checked] at h ⊢
  simp only [checked, hchecks, heffect] at h ⊢
  generalize firstFailure (commandChecks i s.regs) = failure at h ⊢
  cases failure <;> obtain rfl := Host.Outcome.next.inj h <;> rfl

end Sys2Proof.Machine
end

section
/-! SUPPORT. The detection analyzer: the rounded rate (42_analyzer.md R160), what a row counts (R150, R161), and
ANALYZE_W, ANALYZE and RUN (R151 to R153, R162). -/

namespace Sys2Proof.Machine

open Sys2Proof.Claims Polynomial

/-! ### The rounded rate (42_analyzer.md R160) -/

/-- Settles O24: with p = q * d + r, the nearer of d and d + 1 is decided by r against q / 2. -/
theorem rateRoundsToNearestTiesToEven : Obligations.RateRoundsToNearestTiesToEven := by
  intro p q hq
  have hr : p % q < q := Nat.mod_lt p hq
  have hdiv : (p : Int) = q * (p / q : Nat) + (p % q : Nat) := by exact_mod_cast (Nat.div_add_mod p q).symm
  have hdown : (p : Int) - q * (p / q : Nat) = (p % q : Nat) := by omega
  have hup : (p : Int) - q * (p / q + 1 : Nat) = (p % q : Nat) - q := by
    rw [Nat.cast_add, mul_add, Nat.cast_one, mul_one]
    omega
  unfold rne
  split_ifs with hlow hhigh heven
  · rw [hdown]; omega
  · rw [hup]; omega
  · rw [hdown]; omega
  · rw [hup]; omega

theorem rne_mul_self (b : Nat) {q : Nat} (hq : 1 ≤ q) : rne (b * q) q = b := by
  simp [rne, Nat.mul_div_cancel b hq, Nat.lt_of_lt_of_le Nat.zero_lt_one hq]

/-! ### What a row counts (42_analyzer.md R150, R161) -/

section

variable {cw g : Word} {n z : Nat}

/-- Remainders add, so an error is detected exactly when its remainder is not that of the base. -/
theorem hasError_xor (hg : generatorWellFormed g z) (hcw : clearFrom cw n) {e : Word} (he : clearFrom e n) :
    hasError (cw ^^^ e) n g z = decide (polymod e n g z ≠ polymod cw n g z) := by
  rw [hasError_eq_decide, polymod_xor hg hcw he, decide_eq_decide, ne_eq, ne_eq]
  exact not_congr (BitVec.xor_eq_zero_iff.trans eq_comm)

theorem detectedCount_eq (hn : n ≤ 32) (hg : generatorWellFormed g z) (hcw : clearFrom cw n) (w : Nat) :
    detectedCount cw n g z w =
      (errorVectors n w).countP (fun e => decide (polymod e n g z ≠ polymod cw n g z)) :=
  List.countP_congr fun _ he => by rw [hasError_xor hg hcw ((mem_errorVectors hn).1 he).1]

/-- DET counts words, since the enumeration lists each of them once. -/
theorem detectedCount_eq_card (hn : n ≤ 32) (cw g : Word) (z w : Nat) :
    detectedCount cw n g z w =
      Nat.card { e : Word // clearFrom e n ∧ popcount e = w ∧ polymod (cw ^^^ e) n g z ≠ 0 } := by
  rw [detectedCount, List.countP_eq_length_filter,
    ← List.toFinset_card_of_nodup ((nodup_errorVectors hn w).filter _)]
  refine (Nat.subtype_card _ fun e => ?_).symm
  rw [List.mem_toFinset, List.mem_filter, mem_errorVectors hn, hasError_eq_decide, decide_eq_true_eq, and_assoc]

theorem polymod_zero (hg : generatorWellFormed g z) (n : Nat) : polymod 0 n g z = 0 := by
  rw [polymod_eq_zero_iff hg (clearFrom_zero n), (polyOf_eq_zero_iff 0).2 rfl]
  exact dvd_zero _

/-- The row of a codeword is that of 0. -/
theorem detectionRow_of_codeword (hn : n ≤ 32) (hg : generatorWellFormed g z) (hcw : clearFrom cw n)
    (hzero : polymod cw n g z = 0) (w : Nat) : detectionRow cw n g z w = detectionRow 0 n g z w := by
  have hcount : detectedCount cw n g z w = detectedCount 0 n g z w := by
    rw [detectedCount_eq hn hg hcw, detectedCount_eq hn hg (clearFrom_zero n), hzero, polymod_zero hg]
  rw [detectionRow, detectionRow, hcount]

end

/-- Settles O23: no word is truncated, and DET is the number of words it counts. -/
theorem detectionRowCounts : Obligations.DetectionRowCounts := by
  intro cw g n z w ⟨_, hn, _⟩ _ _ _ hw
  obtain ⟨hweight, htotal, hdet, hrate⟩ := detectionRow_toNat cw g z hn hw
  exact ⟨htotal, hdet.trans (detectedCount_eq_card hn cw g z w), by rw [hdet, htotal, hrate], hweight⟩

/-- Settles O25: no word is truncated, so the bounds are those of the numbers counted. -/
theorem detectionRowRanges : Obligations.DetectionRowRanges := by
  intro cw g n z w ⟨_, hn, _⟩ _ hw
  obtain ⟨-, htotal, hdet, hrate⟩ := detectionRow_toNat cw g z hn hw
  rw [htotal, hdet, hrate]
  exact ⟨Nat.choose_pos hw, choose_le_maxTotal hn w, detectedCount_le_choose cw n g z w, rate_le_10000 cw g z hw⟩

/-- Settles O26: only the base's remainder enters the count. -/
theorem detectionRowDependsOnRemainderOnly : Obligations.DetectionRowDependsOnRemainderOnly := by
  intro cw g n z w ⟨_, hn, _⟩ hg hcw _ _
  exact ⟨fun hzero => detectionRow_of_codeword hn hg hcw hzero w, detectedCount_eq hn hg hcw w⟩

/-! ### Single-bit errors (42_analyzer.md R161) -/

theorem polyOf_one_shiftLeft {k : Nat} (hk : k < 32) : polyOf (1#32 <<< k) = X ^ k := by
  ext j
  have hbit : (1#32 <<< k).getLsbD j = true ↔ j = k := by
    rw [getLsbD_one_shiftLeft]
    omega
  simp only [coeff_polyOf, coeff_X_pow, hbit]

/-- A generator with a constant term is prime to x, so it divides a power of x only when it is 1. -/
theorem not_dvd_X_pow {g : Word} {z : Nat} (hg : generatorWellFormed g z) (hz : 1 ≤ z)
    (hconst : g.getLsbD 0 = true) (k : Nat) : ¬ polyOf g ∣ X ^ k := by
  intro hdvd
  have hcop : IsCoprime (polyOf g) X :=
    (irreducible_X.coprime_iff_not_dvd.2 fun hX => by simp [X_dvd_iff, hconst] at hX).symm
  have hunit : IsUnit (polyOf g) := (hcop.pow_right (n := k)).isUnit_of_dvd' dvd_rfl hdvd
  have hdeg := (isMonicOfDegree_polyOf hg).natDegree_eq
  rw [natDegree_eq_zero_of_isUnit hunit] at hdeg
  omega

theorem exists_eq_shiftLeft_of_mem_errorVectors_one {n : Nat} {e : Word} (he : e ∈ errorVectors n 1) :
    ∃ k < n, e = 1#32 <<< k := by
  obtain ⟨t, ht, rfl⟩ := List.mem_map.1 he
  obtain ⟨hsub, hlen⟩ := mem_tuplesFrom.1 ht
  obtain ⟨p, rfl⟩ := List.length_eq_one_iff.1 hlen
  have := List.mem_range'_1.1 (hsub.subset List.mem_cons_self)
  exact ⟨n - 1 - p, by omega, by simp [vecOf]⟩

/-- Settles O27: no power of x is a multiple of the generator, so every error of weight 1 is counted. -/
theorem singleBitErrorsAreDetected : Obligations.SingleBitErrorsAreDetected := by
  intro cw g n z ⟨h1, hn, _⟩ hg hcw hzero hz hconst
  have hne : ∀ e ∈ errorVectors n 1, polymod e n g z ≠ 0 := fun e he hmod => by
    rw [polymod_eq_zero_iff hg ((mem_errorVectors hn).1 he).1] at hmod
    obtain ⟨k, hk, rfl⟩ := exists_eq_shiftLeft_of_mem_errorVectors_one he
    exact not_dvd_X_pow hg hz hconst k (polyOf_one_shiftLeft (hk.trans_le hn) ▸ hmod)
  have hall : detectedCount cw n g z 1 = n := by
    rw [detectedCount_eq hn hg hcw, hzero, List.countP_eq_length.2 fun e he => decide_eq_true (hne e he),
      length_errorVectors, n.choose_one_right]
  obtain ⟨-, htotal, hdet, hrate⟩ := detectionRow_toNat cw g z hn h1
  rw [htotal, hdet, hrate, hall, n.choose_one_right, Nat.mul_comm]
  exact ⟨rfl, rfl, rne_mul_self 10000 h1⟩

/-! ### ANALYZE_W, ANALYZE and RUN (42_analyzer.md R151 to R153, R162) -/

/-- The first failing check of ANALYZE_W, in the vocabulary of the statements. -/
theorem firstFailure_analyzeW (w : Nat) (r : Regs) :
    firstFailure (commandChecks (.analyzeW w) r) =
      if gOk r then
        if cOk r then
          if 1 ≤ w ∧ w ≤ r.codeLength then
            if clearFrom r.cw r.codeLength then Option.none else some .operandRange
          else some .badArg
        else some .badConfig
      else some .malformedPoly := by
  simp only [commandChecks, firstFailure_cons, firstFailure_nil, generatorOk_iff_gOk, configOk_iff_cOk,
    Bool.and_eq_true, decide_eq_true_eq, noBitFrom_iff_clearFrom]

/-- Writing one row changes the report alone. -/
theorem setRow_eq (r : Regs) (w : Nat) (row : Row) :
    r.setRow w row = { r with report := (r.setRow w row).report } := by
  unfold Regs.setRow; split <;> rfl

/-- Settles O28: the checks decide the completion, and the row written is the one that changes. -/
theorem analyzeWWritesOneRow : Obligations.AnalyzeWWritesOneRow := by
  refine ⟨fun n hn => decodeOfEncodeIsIdentity (.analyzeW n) ((Instr.wellFormed_iff _).2 hn), ?_⟩
  rintro w n s rfl
  have hfirst := firstFailure_analyzeW w s.regs
  refine ⟨fun hg => exec_of_fail ?_, fun hg hc => exec_of_fail ?_, fun hg hc hw => exec_of_fail ?_,
    fun hg hc h1 hw hcw => exec_of_fail ?_, fun hg hc h1 hw hcw => ?_⟩
  · rw [hfirst, if_neg hg]
  · rw [hfirst, if_pos hg, if_neg hc]
  · have hbad : ¬ (1 ≤ w ∧ w ≤ s.regs.codeLength) := fun ⟨h1, hle⟩ =>
      hw.elim (Nat.one_le_iff_ne_zero.1 h1) (Nat.not_lt.2 hle)
    rw [hfirst, if_pos hg, if_pos hc, if_neg hbad]
  · rw [hfirst, if_pos hg, if_pos hc, if_pos ⟨h1, hw⟩]
    exact if_neg hcw
  · have hpass : firstFailure (commandChecks (.analyzeW w) s.regs) = Option.none := by
      rw [hfirst, if_pos hg, if_pos hc, if_pos ⟨h1, hw⟩]
      exact if_pos hcw
    refine ⟨(commandEffect (.analyzeW w) s.regs).report, ?_, ?_, fun v hv => ?_⟩ <;>
      rw [commandEffect, ← setRow_eq]
    · exact exec_of_pass hpass
    · exact rowAt_setRow_same _ _ h1 (hw.trans hc.2.1)
    · exact rowAt_setRow_other _ _ hv

/-- The rows of a whole report, with the empty ones written out. -/
theorem rowAt_fullReport (r : Regs) (cw : Word) (n : Nat) (g : Word) (z : Nat) {w : Nat} (h1 : 1 ≤ w)
    (h2 : w ≤ 32) :
    Regs.rowAt { r with report := fullReport cw n g z } w =
      if w ≤ n then detectionRow cw n g z w else { total := 0, det := 0, rate := 0, weight := 0 } :=
  rowAt_reportOf r _ h1 h2

theorem writeReport_eq (r : Regs) (cw : Word) :
    r.writeReport cw =
      { r with rows := r.cfgN, report := fullReport cw r.cfgN.toNat r.gpoly r.gdeg.toNat } := by
  rw [Regs.writeReport, Regs.codeLength, BitVec.ofNat_toNat, BitVec.setWidth_eq]
  rfl

/-- Settles O29: the three checks decide the completion, and the report is that of CW. -/
theorem analyzeWritesReport : Obligations.AnalyzeWritesReport := by
  refine ⟨decodeOfEncodeIsIdentity .analyze rfl, ?_⟩
  rintro n s rfl
  obtain ⟨hpoly, hconfig, hrange, hdone⟩ := exec_of_operandChecks (i := .analyze) (s := s) rfl
  refine ⟨hpoly, hconfig, hrange, fun hg hc hcw => ⟨_, ?_, fun w h1 h2 => rowAt_fullReport _ _ _ _ _ h1 h2⟩⟩
  rw [hdone hg hc hcw, commandEffect, writeReport_eq]

/-- Settles O30: the three checks decide the completion, and under CfgOK the extended vector has length N. -/
theorem runEncodesAndAnalyzes : Obligations.RunEncodesAndAnalyzes := by
  refine ⟨decodeOfEncodeIsIdentity .run rfl, ?_⟩
  rintro n z c s rfl rfl rfl
  obtain ⟨hpoly, hconfig, hrange, hdone⟩ := exec_of_operandChecks (i := .run) (s := s) rfl
  refine ⟨hpoly, hconfig, hrange, fun hg hc hi => ⟨_, ?_, fun w h1 h2 => rowAt_fullReport _ _ _ _ _ h1 h2⟩⟩
  rw [hdone hg hc hi, commandEffect, Regs.encodeThenReport, writeReport_eq, encodeInfo, infoLength_add_degree hc]
  rfl

/-- Settles O31: ENCODE leaves what ANALYZE checks, and the codeword has no bit from N on. -/
theorem runEqualsEncodeThenAnalyze : Obligations.RunEqualsEncodeThenAnalyze := by
  intro s hg hc hi
  obtain ⟨-, -, -, hencode⟩ := exec_of_operandChecks (i := .encode) (s := s) rfl
  obtain ⟨-, -, -, hanalyze⟩ :=
    exec_of_operandChecks (i := .analyze) (s := doneWith s (commandEffect .encode s.regs)) rfl
  obtain ⟨-, -, -, hrun⟩ := exec_of_operandChecks (i := .run) (s := s) rfl
  have hclear : clearFrom (commandEffect .encode s.regs).cw s.regs.codeLength :=
    infoLength_add_degree hc ▸ clearFrom_encodeInfo hg hi
  exact ⟨_, _, hencode hg hc hi, hanalyze hg hc hclear, hrun hg hc hi⟩

/-- Settles O32: the report is a function of what ANALYZE leaves unchanged. -/
theorem analyzeIsIdempotent : Obligations.AnalyzeIsIdempotent := by
  intro s hg hc hcw
  obtain ⟨-, -, -, honce⟩ := exec_of_operandChecks (i := .analyze) (s := s) rfl
  obtain ⟨-, -, -, htwice⟩ :=
    exec_of_operandChecks (i := .analyze) (s := doneWith s (commandEffect .analyze s.regs)) rfl
  exact ⟨_, honce hg hc hcw, htwice hg hc hcw⟩

end Sys2Proof.Machine
end

section
/-! SUPPORT. NOP (43_control.md R180), the effects of a host write (R181, R182), and what a step does on its
agent's turn: the Core runs the pending command (R186), and every other step leaves the results (R248). -/

namespace Sys2Proof.Machine

open Sys2Proof.Claims

/-! ### NOP (43_control.md R180) -/

/-- Settles O33: NOP has no check and no effect. -/
theorem nopOnlyCompletes : Obligations.NopOnlyCompletes :=
  ⟨decodeOfEncodeIsIdentity .nop rfl, fun s => exec_of_pass (i := .nop) (s := s) rfl⟩

/-! ### The effect of a write at each offset (43_control.md R181, R182) -/

theorem rowWordAt_eq_some {place : Nat} {f : RowWord} (h : rowWordAt place = some f) : f.offset = place := by
  unfold rowWordAt at h
  split at h <;> cases h <;> rfl

theorem rowRegAt_eq_some {off : Nat} {g : Reg} (h : rowRegAt off = some g) : g.offset = off := by
  unfold rowRegAt at h
  split at h
  · obtain ⟨f, hf, rfl⟩ := Option.map_eq_some_iff.1 h
    have hplace := rowWordAt_eq_some hf
    rw [Reg.offset, hplace]
    omega
  · cases h

/-- Each register lies at one offset: the converse of `regAt_offset` (10_state.md R20). -/
theorem offset_of_regAt {off : Nat} {g : Reg} (h : regAt off = some g) : g.offset = off := by
  unfold regAt at h
  split at h
  case h_16 => exact rowRegAt_eq_some h
  all_goals cases h; rfl

/-- Only CTRL, STATUS, CMD and the operand and configuration registers can be written. -/
theorem writeAt_ignored (r : Regs) (v : Word) {off : Nat} (hctrl : off ≠ 0x000) (hstatus : off ≠ 0x004)
    (hdropped : off ∉ droppedOffsets) : r.writeAt off v = r := by
  unfold Regs.writeAt
  cases hreg : regAt off with
  | none => rfl
  | some g =>
    obtain rfl := offset_of_regAt hreg
    cases g with
    | ctrl => exact absurd rfl hctrl
    | status => exact absurd rfl hstatus
    | cmd | gpoly | gdeg | cfgN | info | cw | rx | divd => exact absurd (by decide) hdropped
    | kView | rem | synd | evec | rows | row _ _ => rfl

theorem writeOneToClear_eq (f : Status) (v : Word) :
    f.writeOneToClear v =
      { f with done := f.done && !v.getLsbD 1, werr := f.werr && !v.getLsbD 5 } := by
  unfold Status.writeOneToClear
  cases v.getLsbD 1 <;> cases v.getLsbD 5 <;> simp

theorem issue_dropped {r : Regs} (v : Word) (h : r.status.busy = true ∨ r.status.fault = true) :
    r.issue v = r.dropWrite :=
  if_pos (Bool.or_eq_true_iff.2 h)

theorem issue_accepted {r : Regs} (v : Word) (hb : r.status.busy = false) (hf : r.status.fault = false) :
    r.issue v = r.latch v :=
  if_neg (by simp [hb, hf])

theorem unlessBusy_of_idle {r : Regs} (written : Regs) (hb : r.status.busy = false) :
    r.unlessBusy written = written :=
  if_neg (by simp [hb])

theorem writeAt_of_idle {r : Regs} (v : Word) (hb : r.status.busy = false) :
    r.writeAt 0x010 v = { r with gpoly := v } ∧ r.writeAt 0x014 v = { r with gdeg := v.setWidth 5 } ∧
      r.writeAt 0x018 v = r.writeCfgN v ∧ r.writeAt 0x020 v = { r with info := v } ∧
      r.writeAt 0x024 v = { r with cw := v } ∧ r.writeAt 0x028 v = { r with rx := v } ∧
      r.writeAt 0x02C v = { r with divd := v } :=
  ⟨unlessBusy_of_idle _ hb, unlessBusy_of_idle _ hb, unlessBusy_of_idle _ hb, unlessBusy_of_idle _ hb,
    unlessBusy_of_idle _ hb, unlessBusy_of_idle _ hb, unlessBusy_of_idle _ hb⟩

/-- Settles O37: each clause is the write rule of its register. -/
theorem hostWriteEffects : Obligations.HostWriteEffects := by
  intro r v
  refine ⟨fun h => ?_, fun h => writeCtrl_of_clear r h, ?_, fun h => issue_dropped v h,
    fun hb hf => issue_accepted v hb hf, fun hb off h => writeAt_dropped v hb h, fun hb => ?_,
    fun off h0 h4 h => writeAt_ignored r v h0 h4 h⟩
  · rw [writeAt_ctrl, writeCtrl_of_set r h]
    exact blockReset_reset
  · exact congrArg (fun f => { r with status := f }) (writeOneToClear_eq r.status v)
  · rw [← BitVec.setWidth_eq_extractLsb' (by decide), ← BitVec.setWidth_eq_extractLsb' (by decide)]
    exact writeAt_of_idle v hb

/-! ### The Core's step (43_control.md R186, 00_scope.md R12) -/

/-- Taking a turn changes the turns and the counter of rounds alone. -/
theorem takeTurn_frame (s : State) :
    (takeTurn s).2 = { s with sched := (takeTurn s).2.sched, rounds := (takeTurn s).2.rounds } := by
  unfold takeTurn
  split <;> rfl

theorem step_of_core {s : State} {i : Instr} (hturn : (takeTurn s).1 = .core)
    (hb : s.regs.status.busy = true) (hi : decode s.regs.pend = .ok i) : step s = exec i (takeTurn s).2 := by
  rw [step, hturn, agentStep, coreStep, takeTurn_regs, if_pos hb, completePending, takeTurn_regs, hi]

/-- A word of 32 bits is its own table word. -/
theorem tableWord_toNat (v : Word) : tableWord 32 v.toNat = v := by
  rw [tableWord, Nat.mod_eq_of_lt v.isLt, BitVec.ofNat_toNat, BitVec.setWidth_eq]

/-- A command issued with the Core's turn next is run by the next step. -/
theorem step_issuedNext (s : State) {v : Word} {i : Instr} (hi : decode v = .ok i) :
    step (s.issuedNext v) = exec i { s with regs := s.regs.latch v } :=
  step_of_core (s := s.issuedNext v) rfl rfl hi

/-- Settles O52: the Core's turn with BUSY = 1 decodes PEND, which taking the turn leaves. -/
theorem stepRunsDecodedCommand : Obligations.StepRunsDecodedCommand := by
  refine ⟨fun s u i hturn hb hi => ?_, fun s i hi => ?_⟩
  · obtain rfl : (takeTurn s).2 = u := congrArg Prod.snd hturn
    refine ⟨step_of_core (congrArg Prod.fst hturn) hb hi, takeTurn_frame s, fun rest h => ?_, fun h => ?_⟩
    · rw [takeTurn_listed h]
    · rw [takeTurn_closing h]
  · rw [State.withFetchWord, tableWord_toNat]
    exact step_issuedNext s hi

/-! ### Results outside completions (43_control.md R186, 70_reset_and_hazards.md R248) -/

/-- A step that is no completion resets the block, leaves the registers, or makes one host write. -/
theorem step_cases_of_no_completion {s t : State} (h : step s = .next t)
    (hno : ¬((takeTurn s).1 = .core ∧ s.regs.status.busy = true)) :
    t.regs = Regs.reset ∨ t.regs = s.regs ∨ ∃ off v, t.regs = s.regs.writeAt off v := by
  unfold step at h
  cases hturn : (takeTurn s).1 with
  | host =>
    rw [hturn] at h
    obtain ⟨-, -, hregs⟩ := hostStep_cases h
    exact .inr (by simpa using hregs)
  | core =>
    have hb : s.regs.status.busy ≠ true := fun hb => hno ⟨hturn, hb⟩
    rw [hturn, agentStep, coreStep, takeTurn_regs, if_neg hb] at h
    obtain rfl : (takeTurn s).2 = t := by simpa using h
    exact .inr (.inl (takeTurn_regs s))
  | rst =>
    rw [hturn] at h
    obtain rfl : (takeTurn s).2.resetBlock = t := by simpa [agentStep] using h
    exact .inl rfl

/-- A host write resets the block or leaves the results. -/
theorem writeAt_results_cases (r : Regs) (off : Nat) (v : Word) :
    r.writeAt off v = Regs.reset ∨
      ((r.writeAt off v).rem = r.rem ∧ (r.writeAt off v).synd = r.synd ∧ (r.writeAt off v).evec = r.evec ∧
        (r.writeAt off v).rows = r.rows ∧ (r.writeAt off v).report = r.report ∧
        (r.writeAt off v).status.errdet = r.status.errdet) := by
  obtain h | h | h | h | h | ⟨_, ⟨_, h⟩ | h | h | h | h | h | h | h⟩ := writeAt_cases r off v <;>
    simp [h]

/-- Settles O58: outside completions only a host write touches the registers, and none writes a result. -/
theorem resultsChangeOnlyAtCompletion : Obligations.ResultsChangeOnlyAtCompletion := by
  intro s t h
  by_cases hc : (takeTurn s).1 = .core ∧ s.regs.status.busy = true
  · exact .inl hc
  · right
    obtain hr | hr | ⟨off, v, hw⟩ := step_cases_of_no_completion h hc
    · exact .inl (hr ▸ blockReset_reset)
    · exact .inr (by simp [hr])
    · obtain hreset | hkeep := writeAt_results_cases s.regs off v
      · exact .inl (hw.trans hreset ▸ blockReset_reset)
      · exact .inr (hw ▸ hkeep)

end Sys2Proof.Machine
end

section
/-! SUPPORT. Exceptions: the cause a command raises and when (60_exceptions.md R201 to R207), what fault entry
leaves (R210 to R212), and the interrupt output (R215, R216). -/

namespace Sys2Proof.Machine

open Sys2Proof.Claims

/-! ### The cause of a command's fault (60_exceptions.md R201 to R207) -/

theorem generatorOk_eq_false_iff (r : Regs) : r.generatorOk = false ↔ ¬ gOk r :=
  Bool.eq_false_iff.trans (not_congr (generatorOk_iff_gOk r))

theorem configOk_eq_false_iff (r : Regs) : r.configOk = false ↔ ¬ cOk r :=
  Bool.eq_false_iff.trans (not_congr (configOk_iff_cOk r))

theorem noBitFrom_eq_false_iff (v : Word) (n : Nat) : noBitFrom v n = false ↔ ¬ clearFrom v n :=
  Bool.eq_false_iff.trans (not_congr (noBitFrom_iff_clearFrom v n))

/-- A failed check is the first one listed, or one of the others. -/
theorem failed_mem_cons {ok : Bool} {c c' : Cause} {rest : List (Bool × Cause)} :
    (false, c) ∈ (ok, c') :: rest ↔ c = c' ∧ ok = false ∨ (false, c) ∈ rest := by
  rw [List.mem_cons, Prod.mk.injEq, and_comm, eq_comm (a := false)]

/-- Where FAULT was 0, a completion that raises FAULT has failed a check with that cause. -/
theorem failed_mem_of_exec_faultedWith {i : Instr} {s : State} {c : Cause}
    (h : exec i s = .next (faultedWith s c)) (hf : s.regs.status.fault = false) :
    (false, c) ∈ commandChecks i s.regs := by
  obtain ⟨c', hmem, -, heq⟩ | ⟨-, heq⟩ := exec_cases h
  · obtain rfl : c = c' := congrArg (fun t => t.regs.status.cause) heq
    exact hmem
  · have hfault := congrArg (fun t => t.regs.status.fault) heq
    simp [faultedWith, hf] at hfault

/-- A failed check of a command that checks the generator, the configuration and the stray bits of one
operand, in the vocabulary of the statements. -/
theorem failed_operandChecks {i : Instr} {r : Regs} {v : Word} {n : Nat} {c : Cause}
    (hchecks : commandChecks i r =
      [(r.generatorOk, .malformedPoly), (r.configOk, .badConfig), (noBitFrom v n, .operandRange)])
    (h : (false, c) ∈ commandChecks i r) :
    c = .malformedPoly ∧ ¬ gOk r ∨ c = .badConfig ∧ ¬ cOk r ∨ c = .operandRange ∧ ¬ clearFrom v n := by
  simpa only [hchecks, failed_mem_cons, List.not_mem_nil, or_false, generatorOk_eq_false_iff,
    configOk_eq_false_iff, noBitFrom_eq_false_iff] using h

theorem failed_divrem {len : Nat} {r : Regs} {c : Cause} (h : (false, c) ∈ commandChecks (.divrem len) r) :
    c = .malformedPoly ∧ ¬ gOk r ∨ c = .badConfig ∧ len = 0 ∧ ¬ cOk r ∨ c = .badArg ∧ 32 < len ∨
      c = .operandRange ∧ ¬ clearFrom r.divd (r.dividendLength len) := by
  simpa only [commandChecks, failed_mem_cons, List.not_mem_nil, or_false, generatorOk_eq_false_iff,
    Bool.or_eq_false_iff, bne_eq_false_iff_eq, configOk_eq_false_iff, noBitFrom_eq_false_iff,
    decide_eq_false_iff_not, Nat.not_le] using h

theorem failed_enumFirst {w : Nat} {r : Regs} {c : Cause} (h : (false, c) ∈ commandChecks (.enumFirst w) r) :
    c = .badConfig ∧ ¬ cOk r ∨ c = .badArg ∧ r.codeLength < w := by
  simpa only [commandChecks, failed_mem_cons, List.not_mem_nil, or_false, configOk_eq_false_iff,
    decide_eq_false_iff_not, Nat.not_le] using h

theorem failed_enumNext {r : Regs} {c : Cause} (h : (false, c) ∈ commandChecks .enumNext r) :
    c = .badConfig ∧ ¬ cOk r ∨ c = .enumState ∧ r.status.enumValid = false := by
  simpa only [commandChecks, failed_mem_cons, List.not_mem_nil, or_false, configOk_eq_false_iff] using h

theorem failed_analyzeW {w : Nat} {r : Regs} {c : Cause} (h : (false, c) ∈ commandChecks (.analyzeW w) r) :
    c = .malformedPoly ∧ ¬ gOk r ∨ c = .badConfig ∧ ¬ cOk r ∨
      c = .badArg ∧ (w = 0 ∨ r.codeLength < w) ∨ c = .operandRange ∧ ¬ clearFrom r.cw r.codeLength := by
  simpa only [commandChecks, failed_mem_cons, List.not_mem_nil, or_false, generatorOk_eq_false_iff,
    configOk_eq_false_iff, noBitFrom_eq_false_iff, Bool.and_eq_false_iff, decide_eq_false_iff_not,
    Nat.not_le, Nat.lt_one_iff] using h

/-- Settles O35: the fault is that of a failed check, and the checks of each command are R201's. -/
theorem causesOfEachCommand : Obligations.CausesOfEachCommand := by
  intro i s c h hf
  have hmem := failed_mem_of_exec_faultedWith h hf
  cases i with
  | nop => exact absurd hmem List.not_mem_nil
  | divrem len =>
    obtain ⟨rfl, hg⟩ | ⟨rfl, rfl, hc⟩ | ⟨rfl, hlen⟩ | ⟨rfl, hd⟩ := failed_divrem hmem
    · simp [hg]
    · simp [hc]
    · simp [hlen]
    · exact .inr (.inr (.inr (.inl ⟨rfl, .inl ⟨len, rfl, hd⟩⟩)))
  | encode | run =>
    obtain ⟨rfl, hg⟩ | ⟨rfl, hc⟩ | ⟨rfl, hi⟩ := failed_operandChecks rfl hmem
    · simp [hg]
    · simp [hc]
    · exact .inr (.inr (.inr (.inl ⟨rfl, .inr (.inl ⟨by simp, hi⟩)⟩)))
  | check =>
    obtain ⟨rfl, hg⟩ | ⟨rfl, hc⟩ | ⟨rfl, hr⟩ := failed_operandChecks rfl hmem
    · simp [hg]
    · simp [hc]
    · exact .inr (.inr (.inr (.inl ⟨rfl, .inr (.inr (.inl ⟨rfl, hr⟩))⟩)))
  | analyze =>
    obtain ⟨rfl, hg⟩ | ⟨rfl, hc⟩ | ⟨rfl, hw⟩ := failed_operandChecks rfl hmem
    · simp [hg]
    · simp [hc]
    · exact .inr (.inr (.inr (.inl ⟨rfl, .inr (.inr (.inr ⟨.inl rfl, hw⟩))⟩)))
  | enumFirst w =>
    obtain ⟨rfl, hc⟩ | ⟨rfl, hw⟩ := failed_enumFirst hmem
    · simp [hc]
    · exact .inr (.inr (.inl ⟨rfl, .inr (.inl ⟨w, rfl, hw⟩)⟩))
  | enumNext =>
    obtain ⟨rfl, hc⟩ | ⟨rfl, hv⟩ := failed_enumNext hmem
    · simp [hc]
    · simp [hv]
  | analyzeW w =>
    obtain ⟨rfl, hg⟩ | ⟨rfl, hc⟩ | ⟨rfl, hw⟩ | ⟨rfl, hcw⟩ := failed_analyzeW hmem
    · simp [hg]
    · simp [hc]
    · exact .inr (.inr (.inl ⟨rfl, .inr (.inr ⟨w, rfl, hw⟩)⟩))
    · exact .inr (.inr (.inr (.inl ⟨rfl, .inr (.inr (.inr ⟨.inr ⟨w, rfl⟩, hcw⟩))⟩)))

/-! ### Fault entry, and the fault state until reset (60_exceptions.md R210 to R212) -/

/-- Settles O36: a completion that takes no fault leaves FAULT at 0. -/
theorem faultsArePrecise : Obligations.FaultsArePrecise := by
  intro s t h hs ht
  obtain ⟨c, hc, rfl⟩ | ⟨i, -, rfl⟩ := completePending_regs h
  · exact ⟨c, hc, takeFault_eq_faultedWith s c, rfl, rfl, rfl⟩
  · simp [hs] at ht

/-- A host write in the fault state resets the block, or leaves FAULT, CAUSE and BUSY: no issue is accepted. -/
theorem writeAt_keeps_fault {r : Regs} (off : Nat) (v : Word) (hf : r.status.fault = true) :
    r.writeAt off v = Regs.reset ∨
      ((r.writeAt off v).status.fault = true ∧ (r.writeAt off v).status.cause = r.status.cause ∧
        (r.writeAt off v).status.busy = r.status.busy) := by
  have hcases := writeAt_cases r off v
  simp only [hf, Bool.true_eq_false, false_and, false_or] at hcases
  obtain h | h | h | h | h | ⟨-, h | h | h | h | h | h | h⟩ := hcases <;> simp [h, hf]

theorem Status.busy_eq_false_of_fault {f : Status} (hcoh : f.coherent = true) (hf : f.fault = true) :
    f.busy = false := by
  obtain ⟨hbusy, -, -⟩ := f.coherent_iff.1 hcoh
  refine Bool.eq_false_iff.2 fun hb => ?_
  obtain ⟨-, hnofault⟩ := hbusy hb
  simp [hf] at hnofault

/-- Settles O57: with FAULT = 1 a coherent STATUS has BUSY = 0, so the Core is not enabled and no issue is
accepted. -/
theorem faultLastsUntilReset : Obligations.FaultLastsUntilReset := by
  intro s t hcoh hf h
  have hidle := Status.busy_eq_false_of_fault hcoh hf
  obtain hr | hr | ⟨off, v, hw⟩ | ⟨hb, -⟩ := step_cases h
  · exact .inr (hr ▸ blockReset_reset)
  · rw [hr]
    exact .inl ⟨hf, rfl, hidle⟩
  · obtain hreset | hkeep := writeAt_keeps_fault off v hf
    · exact .inr (hw.trans hreset ▸ blockReset_reset)
    · exact .inl (by rwa [hw, ← hidle])
  · simp [hidle] at hb

/-! ### The interrupt output (60_exceptions.md R215, R216) -/

theorem irq_iff (r : Regs) : r.irq = true ↔ r.ie = true ∧ (r.status.done = true ∨ r.status.fault = true) := by
  rw [Regs.irq, Bool.and_eq_true, Bool.or_eq_true]

theorem irq_of_disabled {r : Regs} (h : r.ie = false) : r.irq = false := by simp [Regs.irq, h]

theorem irq_of_fault {r : Regs} (h : r.status.fault = true) : r.irq = r.ie := by simp [Regs.irq, h]

/-- With neither DONE nor FAULT there is nothing to signal. -/
theorem irq_of_no_event {r : Regs} (hd : r.status.done = false) (hf : r.status.fault = false) :
    r.irq = false := by simp [Regs.irq, hd, hf]

@[simp] theorem irq_dropWrite (r : Regs) : r.dropWrite.irq = r.irq := rfl

@[simp] theorem commandEffect_ie (i : Instr) (r : Regs) : (commandEffect i r).ie = r.ie := by
  cases i <;> simp [commandEffect]

theorem writeAt_status (r : Regs) (v : Word) :
    r.writeAt 0x004 v = { r with status := r.status.writeOneToClear v } := rfl

theorem writeAt_cmd (r : Regs) (v : Word) : r.writeAt 0x008 v = r.issue v := rfl

/-- Settles O47: a completion sets DONE or FAULT, and leaves IE. -/
theorem interruptSignalsCompletion : Obligations.InterruptSignalsCompletion := by
  refine ⟨irq_iff, fun s t hie h => ?_, fun r v h0 h1 hev => ?_⟩
  · rw [irq_iff]
    obtain ⟨c, -, rfl⟩ | ⟨i, -, rfl⟩ := completePending_regs h
    · exact ⟨hie, .inr rfl⟩
    · exact ⟨(commandEffect_ie i s.regs).trans hie, .inl rfl⟩
  · rw [writeAt_ctrl, writeCtrl_of_clear r h1, irq_iff]
    exact ⟨h0, hev⟩

theorem irq_writeCtrl_of_set (r : Regs) {v : Word} (h : v.getLsbD 1 = true) : (r.writeCtrl v).irq = false := by
  rw [writeCtrl_of_set r h]
  rfl

theorem irq_writeCtrl_of_disable (r : Regs) {v : Word} (h : v.getLsbD 0 = false) :
    (r.writeCtrl v).irq = false := by
  cases hreset : v.getLsbD 1 with
  | true => exact irq_writeCtrl_of_set r hreset
  | false =>
    rw [writeCtrl_of_clear r hreset]
    exact irq_of_disabled h

/-- Settles O48: an accepted write clears DONE or IE or resets the block, and FAULT outlives the others. -/
theorem interruptClearing : Obligations.InterruptClearing := by
  intro r v
  refine ⟨fun hf h1 => ?_, fun hf hb => ?_, fun hf => ⟨?_, ?_⟩, irq_writeCtrl_of_disable r,
    irq_writeCtrl_of_set r, fun hb off hoff => ?_⟩
  · rw [writeAt_status]
    exact irq_of_no_event (if_pos h1) hf
  · rw [writeAt_cmd, issue_accepted v hb hf]
    exact irq_of_no_event rfl hf
  · rw [writeAt_status]
    exact irq_of_fault hf
  · rw [writeAt_cmd, issue_dropped v (.inr hf), irq_dropWrite]
    exact irq_of_fault hf
  · rw [writeAt_dropped v hb hoff, irq_dropWrite]

end Sys2Proof.Machine
end

section
/-! SUPPORT. Reset (70_reset_and_hazards.md R240, R241) and the completion of a pending command (R255): no Host's
step refuses, and a Core's turn with BUSY = 1 ends in BUSY = 0. -/

namespace Sys2Proof.Machine

open Sys2Proof.Claims

/-! ### A step on its turn (00_scope.md R12) -/

theorem step_of_listed {s : State} {turn : Turn} {rest : List Turn} (h : s.sched = turn :: rest) :
    step s = agentStep turn { s with sched := rest } := by
  rw [step, takeTurn_listed h]

theorem step_of_listed_rst {s : State} {rest : List Turn} (h : s.sched = .rst :: rest) :
    step s = .next { s with regs := Regs.reset, sched := rest } :=
  step_of_listed h

/-- Settles O51: each of the two resets writes `Regs.reset`. -/
theorem bothResetsResetTheBlock : Obligations.BothResetsResetTheBlock := by
  refine ⟨fun s rest h => ⟨_, step_of_listed_rst h, blockReset_reset, rfl, rfl⟩, fun s v hv => ?_⟩
  obtain ⟨hsoft, -⟩ := hostWriteEffects s.regs v
  exact ⟨_, busAccess_accepted (off := 0) (.write v) s (by decide) rfl, hsoft hv⟩

/-! ### A completion answers a next state, and a Host's step that or a fault -/

theorem checked_eq_next (checks : List (Bool × Cause)) (effect : Regs → Regs) (s : State) :
    ∃ t, checked checks effect s = .next t := by
  cases h : firstFailure checks with
  | none => exact ⟨_, checked_of_pass effect s h⟩
  | some c => exact ⟨_, checked_of_fail effect s h⟩

/-- A command completes whatever its word is, with a fault or without (43_control.md R186). -/
theorem completePending_eq_next (s : State) : ∃ t, completePending s = .next t := by
  unfold completePending
  cases decode s.regs.pend with
  | ok i =>
    obtain ⟨t, ht⟩ := checked_eq_next (commandChecks i s.regs) (commandEffect i) s
    exact ⟨t, (exec_eq_checked i s).trans ht⟩
  | error _ => exact ⟨_, rfl⟩

theorem completePending_idle {s t : State} (h : completePending s = .next t) : t.regs.status.busy = false := by
  obtain ⟨_, -, rfl⟩ | ⟨_, -, rfl⟩ := completePending_regs h <;> rfl

theorem step_idle_of_core {s : State} (hturn : (takeTurn s).1 = .core) (hb : s.regs.status.busy = true) :
    ∃ t, step s = .next t ∧ t.regs.status.busy = false := by
  obtain ⟨t, ht⟩ := completePending_eq_next (takeTurn s).2
  refine ⟨t, ?_, completePending_idle ht⟩
  rw [step, hturn, agentStep, coreStep, takeTurn_regs, if_pos hb, ht]

theorem busAccess_ne_refused (a : BusAccess) (s : State) (r : Refusal) : busAccess a s ≠ .refused r := by
  unfold busAccess
  split
  · simp
  · split <;> simp

theorem hostGoto_ne_refused (l : Nat) (s : State) (r : Refusal) : hostGoto l s ≠ .refused r := by
  unfold hostGoto
  split <;> simp

theorem hostStep_ne_refused (s : State) (r : Refusal) : hostStep s ≠ .refused r := by
  unfold hostStep
  cases s.hostStmt with
  | none => simp
  | some st =>
    cases st with
    | access a => exact busAccess_ne_refused a _ r
    | label l => simp [runStmt]
    | branch c l =>
      simp only [runStmt]
      split
      · exact hostGoto_ne_refused l s r
      · simp

/-! ### A pending command completes (70_reset_and_hazards.md R255) -/

/-- Within `n` steps BUSY is 0, or a fault of the Host's step has stopped the run. -/
def clearsWithin (n : Nat) (s : State) : Prop :=
  ∃ k, k ≤ n ∧
    ((∃ t, Sys2Proof.core.run k s = .next t ∧ t.regs.status.busy = false) ∨
      ∃ f, Sys2Proof.core.run k s = .fault f)

theorem run_succ_of_next {s t : State} (k : Nat) (h : step s = .next t) :
    Sys2Proof.core.run (k + 1) s = Sys2Proof.core.run k t := by
  have hstep : Sys2Proof.core.step s = .next t := h
  simp only [Host.Core.run, hstep]

theorem run_succ_of_fault {s : State} {f : Fault} (k : Nat) (h : step s = .fault f) :
    Sys2Proof.core.run (k + 1) s = .fault f := by
  have hstep : Sys2Proof.core.step s = .fault f := h
  simp only [Host.Core.run, hstep]

theorem clearsWithin_of_idle (n : Nat) {s : State} (h : s.regs.status.busy = false) : clearsWithin n s :=
  ⟨0, n.zero_le, .inl ⟨s, rfl, h⟩⟩

theorem clearsWithin_of_fault (n : Nat) {s : State} {f : Fault} (h : step s = .fault f) :
    clearsWithin (n + 1) s :=
  ⟨1, n.succ_pos, .inr ⟨f, run_succ_of_fault 0 h⟩⟩

theorem clearsWithin_of_next {n : Nat} {s t : State} (h : step s = .next t) (ht : clearsWithin n t) :
    clearsWithin (n + 1) s := by
  obtain ⟨k, hk, hrun⟩ := ht
  exact ⟨k + 1, Nat.succ_le_succ hk, by rwa [run_succ_of_next k h]⟩

theorem clearsWithin_of_core (n : Nat) {s : State} (hturn : (takeTurn s).1 = .core) :
    clearsWithin (n + 1) s := by
  cases hb : s.regs.status.busy with
  | false => exact clearsWithin_of_idle _ hb
  | true =>
    obtain ⟨t, ht, hidle⟩ := step_idle_of_core hturn hb
    exact clearsWithin_of_next ht (clearsWithin_of_idle n hidle)

/-- A listed turn of the Core or of the reset clears BUSY, a Host's turn shortens the list, and with no turn
left the closing turn of a busy block is the Core's. -/
theorem clearsWithin_listed_turns {sched : List Turn} {s : State} (h : s.sched = sched) :
    clearsWithin (sched.length + 1) s := by
  induction sched generalizing s with
  | nil =>
    cases hb : s.regs.status.busy with
    | false => exact clearsWithin_of_idle _ hb
    | true => exact clearsWithin_of_core _ (by rw [takeTurn_closing h, closingTurn_busy hb])
  | cons turn rest ih =>
    cases turn with
    | core => exact clearsWithin_of_core _ (by rw [takeTurn_listed h])
    | rst => exact clearsWithin_of_next (step_of_listed_rst h) (clearsWithin_of_idle _ rfl)
    | host =>
      have hstep : step s = hostStep { s with sched := rest } := step_of_listed h
      cases hhost : hostStep { s with sched := rest } with
      | next t =>
        obtain ⟨hsched, -, -⟩ := hostStep_cases hhost
        exact clearsWithin_of_next (hstep.trans hhost) (ih hsched)
      | fault f => exact clearsWithin_of_fault _ (hstep.trans hhost)
      | refused r => exact absurd hhost (hostStep_ne_refused _ r)

/-- Settles O60: the turns listed are used up, or one of them has cleared BUSY or stopped the run. -/
theorem pendingCommandCompletes : Obligations.PendingCommandCompletes :=
  fun _ _ => clearsWithin_listed_turns rfl

end Sys2Proof.Machine
end

section
/-! SUPPORT. The reason by which the decoder refuses each kind of illegal word (30_encoding.md R83 to R85), and
the words written out from the format of R80. -/

namespace Sys2Proof

/-- R83: the reserved bits are looked at before OP and ARG. -/
theorem decode_of_reservedBits {v : Word} (hrsv : fieldRsv v ≠ 0) : decode v = .error .reservedBits :=
  if_neg hrsv

/-- R84, for each opcode without an argument. -/
theorem decode_of_argNotZero {v : Word} (hrsv : fieldRsv v = 0)
    (hop : fieldOp v ∈ [0x00, 0x02, 0x03, 0x05, 0x07, 0x08]) (harg : fieldArg v ≠ 0) :
    decode v = .error .argNotZero := by
  rw [decode, if_pos hrsv]
  simp only [List.mem_cons, List.not_mem_nil, or_false] at hop
  obtain h | h | h | h | h | h := hop <;> rw [h] <;> exact if_neg harg

/-- R85, whatever ARG is. -/
theorem decode_of_reservedOpcode {v : Word} (hrsv : fieldRsv v = 0) (hop : 0x09 ≤ fieldOp v) :
    decode v = .error .reservedOpcode := by
  rw [decode, if_pos hrsv]
  unfold decodeOp
  split
  case h_10 => rfl
  all_goals omega

/-- Settles O1: each legal word is its command's word, and each illegal one has the fields of its kind. -/
theorem writtenWordsDecode : Obligations.WrittenWordsDecode := by
  have hlegal {v : Word} {i : Instr} (hwf : i.wellFormed = true) (hv : v = encode i) : decode v = .ok i :=
    (decode_eq_ok_iff v i).2 ⟨hwf, hv⟩
  exact ⟨hlegal rfl rfl, hlegal rfl rfl, hlegal rfl rfl, hlegal rfl rfl, hlegal rfl rfl, hlegal rfl rfl,
    hlegal rfl rfl, hlegal rfl rfl, hlegal rfl rfl, hlegal rfl rfl,
    decode_of_reservedOpcode rfl (by decide), decode_of_reservedOpcode rfl (by decide),
    decode_of_argNotZero rfl (by decide) (by decide), decode_of_reservedBits (by decide)⟩

end Sys2Proof
end
